-- ==== Sys2Proof/Word.lean ====
section
/-! DEFINITION. The bit-vector types of the block: bytes of messages and buffers, 16-bit counters and cursors, 32-bit
elements (R9, R10 of 00_scope.md: bit 0 is the least significant bit). -/

namespace Sys2Proof

/-- One byte of a message or a buffer. -/
abbrev Byte := BitVec 8

/-- A 16-bit counter, cursor or wire value. -/
abbrev Half := BitVec 16

/-- A 32-bit element or wire value. -/
abbrev Word := BitVec 32

end Sys2Proof
end

