-- ==== Sys2Proof/Config.lean ====
section
/-! DEFINITION. What is fixed for the life of one block (R22 of 10_state.md): the shape of a registry record (R140), the
parameters REG, IBUF_SIZE and OBUF_SIZE (R7 of 00_scope.md), the constants the source wires into the algorithms (R8, U1),
and the one free value the spec leaves (R41: buffer bytes that nothing has written). The default registry is in
Machine/Registry.lean. -/

namespace Sys2Proof

/-- The widths a scalar or an array element may have, in bytes (R8, R140). -/
inductive Width where
  | one
  | two
  | four
  deriving DecidableEq, Repr

/-- FieldType of a registry record (R140). -/
inductive FieldType where
  /-- zero length: presence alone is the signal (R92) -/
  | marker
  /-- a little-endian integer or a binary32 pattern (R93) -/
  | scalar (width : Width) (signed : Bool) (isFloat : Bool)
  /-- `count` little-endian unsigned elements (R94) -/
  | fixedArray (elementWidth : Width) (count : Nat)
  /-- the 7-byte record: year, month, day, hour, minute, second (R95) -/
  | dateTime
  deriving DecidableEq, Repr

/-- Range descriptor of a record, used by the encoder alone (R140, R148). -/
inductive FieldRange where
  | full
  | interval (lo hi : Int)
  | nibbles (hmax lmax : Nat)
  deriving DecidableEq, Repr

/-- A registry record (R140). Its identifier is the tag it is found under; `scale = some k` means the factor `10^k`. -/
structure Record where
  name  : String
  type  : FieldType
  scale : Option Int
  range : FieldRange
  deriving DecidableEq, Repr

/-- The parameters of R7: the registry, a total function from the 256 identifiers, and the two buffer sizes. -/
structure Params where
  reg      : Byte → Option Record
  ibufSize : Nat
  obufSize : Nat

namespace Config

/-- STX, fixed by the source (R8). -/
abbrev stx : Byte := 0x02

/-- ETX, fixed by the source (R8). -/
abbrev etx : Byte := 0x03

/-- HDR_LEN, the length of the opaque gateway header (R7, R331). -/
abbrev hdrLen : Nat := 5

/-- TRANSPORT_LIMIT, the length above which ENC_END raises the advisory (R7, R290). -/
abbrev transportLimit : Nat := 340

/-- MAX_ELEMS, the number of operand and result elements (R7). -/
abbrev maxElems : Nat := 8

/-- MAX_PAYLOAD, the largest payload length of a record (R7). -/
abbrev maxPayload : Nat := 32

/-- Which of the two buffers a free byte belongs to. -/
inductive Buffer where
  | ibuf
  | obuf
  deriving DecidableEq, Repr

/-- FREE VALUE (log 5). What byte `i` of a buffer holds after the `epoch`-th power-on as long as nothing has written it:
R41 of 10_state.md says any value. No proof can know it. -/
opaque powerOnByte (epoch : Nat) (b : Buffer) (i : Nat) : Byte

end Config

end Sys2Proof
end

