-- ==== Sys2Proof/Syntax.lean ====
section
/-! DEFINITION. The instructions of the block (R2 of 00_scope.md): the 70 TLV entries of REG_DEFAULT that the decoder
interprets (R92 to R99 of 30_encoding.md), each with its payload as operands, and the 8 host commands (R120). One
constructor per row of opcode_table.json. A payload operand holds the bits on the wire, least significant byte first
(R62); the operands of a command are the operand registers, so a command has none of its own. -/

namespace Sys2Proof

/-- Where an instruction's bytes stand: in a write to CMD (R120) or in a message (R90). Five byte values are both a
command code and a tag (log 7). -/
inductive Space where
  | command
  | entry
  deriving DecidableEq, Repr

/-- The instructions. -/
inductive Instr where
  /-- tag 0x02, marker (R150) -/
  | stx
  /-- tag 0x03, marker (R151) -/
  | etx
  /-- tag 0x04, S1, unsigned (R180) -/
  | swver (u : Byte)
  /-- tag 0x08, S4, unsigned (R181) -/
  | source (u : Word)
  /-- tag 0x09, S2, unsigned (R182) -/
  | battv (u : Half)
  /-- tag 0x0a, S2, unsigned (R183) -/
  | press (u : Half)
  /-- tag 0x0b, S2, signed (R184) -/
  | temp (u : Half)
  /-- tag 0x0c, S2, unsigned (R185) -/
  | humid (u : Half)
  /-- tag 0x0d, S2, unsigned (R186) -/
  | year (u : Half)
  /-- tag 0x0e, S1, unsigned (R187) -/
  | month (u : Byte)
  /-- tag 0x0f, S1, unsigned (R188) -/
  | day (u : Byte)
  /-- tag 0x10, S1, unsigned (R189) -/
  | hour (u : Byte)
  /-- tag 0x11, S1, unsigned (R190) -/
  | min (u : Byte)
  /-- tag 0x12, S1, unsigned (R191) -/
  | sec (u : Byte)
  /-- tag 0x13, S2, unsigned (R192) -/
  | millis (u : Half)
  /-- tag 0x14, DT (R193) -/
  | datetime (year : Half) (month day hour minute second : Byte)
  /-- tag 0x15, S4, signed (R194) -/
  | lat (u : Word)
  /-- tag 0x16, S4, signed (R195) -/
  | lon (u : Word)
  /-- tag 0x17, S4, signed (R196) -/
  | alt (u : Word)
  /-- tag 0x18, S4, signed (R197) -/
  | speed (u : Word)
  /-- tag 0x19, S4, signed (R198) -/
  | head (u : Word)
  /-- tag 0x1a, S1, unsigned (R199) -/
  | sats (u : Byte)
  /-- tag 0x1b, S2, unsigned (R200) -/
  | pdop (u : Half)
  /-- tag 0x1c, S1, unsigned (R201) -/
  | fix (u : Byte)
  /-- tag 0x1d, A(1,3) (R202) -/
  | geofstat (e0 e1 e2 : Byte)
  /-- tag 0x20, S1, unsigned (R203) -/
  | userval1 (u : Byte)
  /-- tag 0x21, S1, unsigned (R204) -/
  | userval2 (u : Byte)
  /-- tag 0x22, S2, unsigned (R205) -/
  | userval3 (u : Half)
  /-- tag 0x23, S2, unsigned (R206) -/
  | userval4 (u : Half)
  /-- tag 0x24, S4, unsigned (R207) -/
  | userval5 (u : Word)
  /-- tag 0x25, S4, unsigned (R208) -/
  | userval6 (u : Word)
  /-- tag 0x26, S4, binary32 pattern (R209) -/
  | userval7 (u : Word)
  /-- tag 0x27, S4, binary32 pattern (R210) -/
  | userval8 (u : Word)
  /-- tag 0x30, A(4,3) (R220) -/
  | mofields (e0 e1 e2 : Word)
  /-- tag 0x31, S1, unsigned (R221) -/
  | flags1 (u : Byte)
  /-- tag 0x32, S1, unsigned (R222) -/
  | flags2 (u : Byte)
  /-- tag 0x33, S4, unsigned (R223) -/
  | dest (u : Word)
  /-- tag 0x34, S2, unsigned (R224) -/
  | hipress (u : Half)
  /-- tag 0x35, S2, unsigned (R225) -/
  | lopress (u : Half)
  /-- tag 0x36, S2, signed (R226) -/
  | hitemp (u : Half)
  /-- tag 0x37, S2, signed (R227) -/
  | lotemp (u : Half)
  /-- tag 0x38, S2, unsigned (R228) -/
  | hihumid (u : Half)
  /-- tag 0x39, S2, unsigned (R229) -/
  | lohumid (u : Half)
  /-- tag 0x3a, S1, unsigned (R230) -/
  | geofnum (u : Byte)
  /-- tag 0x3b, S4, signed (R231) -/
  | geof1lat (u : Word)
  /-- tag 0x3c, S4, signed (R232) -/
  | geof1lon (u : Word)
  /-- tag 0x3d, S4, unsigned (R233) -/
  | geof1rad (u : Word)
  /-- tag 0x3e, S4, signed (R234) -/
  | geof2lat (u : Word)
  /-- tag 0x3f, S4, signed (R235) -/
  | geof2lon (u : Word)
  /-- tag 0x40, S4, unsigned (R236) -/
  | geof2rad (u : Word)
  /-- tag 0x41, S4, signed (R237) -/
  | geof3lat (u : Word)
  /-- tag 0x42, S4, signed (R238) -/
  | geof3lon (u : Word)
  /-- tag 0x43, S4, unsigned (R239) -/
  | geof3rad (u : Word)
  /-- tag 0x44, S4, signed (R240) -/
  | geof4lat (u : Word)
  /-- tag 0x45, S4, signed (R241) -/
  | geof4lon (u : Word)
  /-- tag 0x46, S4, unsigned (R242) -/
  | geof4rad (u : Word)
  /-- tag 0x47, S2, unsigned (R243) -/
  | wakeint (u : Half)
  /-- tag 0x48, S2, unsigned (R244) -/
  | alarmint (u : Half)
  /-- tag 0x49, S2, unsigned (R245) -/
  | txint (u : Half)
  /-- tag 0x4a, S2, unsigned (R246) -/
  | lowbatt (u : Half)
  /-- tag 0x4b, S1, unsigned (R247) -/
  | dynmodel (u : Byte)
  /-- tag 0x52, A(1,4) (R152) -/
  | rbhead (e0 e1 e2 e3 : Byte)
  /-- tag 0x58, marker (R153) -/
  | userfunc1
  /-- tag 0x59, marker (R154) -/
  | userfunc2
  /-- tag 0x5a, marker (R155) -/
  | userfunc3
  /-- tag 0x5b, marker (R156) -/
  | userfunc4
  /-- tag 0x5c, S2, unsigned (R157) -/
  | userfunc5 (u : Half)
  /-- tag 0x5d, S2, unsigned (R158) -/
  | userfunc6 (u : Half)
  /-- tag 0x5e, S4, unsigned (R159) -/
  | userfunc7 (u : Word)
  /-- tag 0x5f, S4, unsigned (R160) -/
  | userfunc8 (u : Word)
  /-- command 0x00 (R380) -/
  | nop
  /-- command 0x01 (R261) -/
  | encBegin
  /-- command 0x02 (R263) -/
  | encField
  /-- command 0x03 (R288) -/
  | encEnd
  /-- command 0x10 (R330) -/
  | decRun
  /-- command 0x20 (R141) -/
  | regTypeof
  /-- command 0x21 (R142) -/
  | regScaleof
  /-- command 0xff (R382) -/
  | reset
  deriving DecidableEq, Repr

/-- Which of the two encodings an instruction has. -/
def Instr.space : Instr → Space
  | .nop | .encBegin | .encField | .encEnd | .decRun | .regTypeof | .regScaleof | .reset => .command
  | .stx | .etx | .swver _ | .source _ | .battv _ | .press _ | .temp _ | .humid _ | .year _ | .month _
  | .day _ | .hour _ | .min _ | .sec _ | .millis _ | .datetime _ _ _ _ _ _ | .lat _ | .lon _ | .alt _
  | .speed _ | .head _ | .sats _ | .pdop _ | .fix _ | .geofstat _ _ _ | .userval1 _ | .userval2 _
  | .userval3 _ | .userval4 _ | .userval5 _ | .userval6 _ | .userval7 _ | .userval8 _ | .mofields _ _ _
  | .flags1 _ | .flags2 _ | .dest _ | .hipress _ | .lopress _ | .hitemp _ | .lotemp _ | .hihumid _
  | .lohumid _ | .geofnum _ | .geof1lat _ | .geof1lon _ | .geof1rad _ | .geof2lat _ | .geof2lon _
  | .geof2rad _ | .geof3lat _ | .geof3lon _ | .geof3rad _ | .geof4lat _ | .geof4lon _ | .geof4rad _
  | .wakeint _ | .alarmint _ | .txint _ | .lowbatt _ | .dynmodel _ | .rbhead _ _ _ _ | .userfunc1 | .userfunc2
  | .userfunc3 | .userfunc4 | .userfunc5 _ | .userfunc6 _ | .userfunc7 _ | .userfunc8 _ => .entry

end Sys2Proof
end

