-- ==== Sys2Proof/Decode.lean ====
section
/-! DEFINITION. From bytes to instructions and back (30_encoding.md): the byte-order primitives of R11, the host command
codes (R120, R121), the TLV entries of REG_DEFAULT (R92 to R99), and the encoder. Decoding is total: what is no
instruction is refused by name. -/

namespace Sys2Proof

/-- `le_bytes(w, v)` of R11 for a natural number: `w` bytes, least significant first. -/
def leBytes : Nat → Nat → List Byte
  | 0, _ => []
  | w + 1, v => BitVec.ofNat 8 v :: leBytes w (v / 256)

/-- `le_bytes(w, v)` of R11 for an integer, reduced modulo `2^(8w)` first (R101, R276). -/
def leBytesInt (w : Nat) (v : Int) : List Byte :=
  leBytes w (v % (2 : Int) ^ (8 * w)).toNat

/-- `le_uint(s)` of R11. -/
def leUint : List Byte → Nat
  | [] => 0
  | b :: s => b.toNat + 256 * leUint s

/-- `to_signed(w, v)` of R11, `w` in bytes (C14). -/
def toSigned (w v : Nat) : Int :=
  if 2 ^ (8 * w - 1) ≤ v then (v : Int) - (2 : Int) ^ (8 * w) else v

/-- A 2-byte little-endian item (R64). -/
def le16 (b0 b1 : Byte) : Half :=
  b1 ++ b0

/-- A 4-byte little-endian item (R64). -/
def le32 (b0 b1 b2 b3 : Byte) : Word :=
  b3 ++ b2 ++ b1 ++ b0

/-- What reading one entry from a byte string gives. -/
inductive EntryRead where
  /-- an instruction, and the bytes after it -/
  | entry (i : Instr) (rest : List Byte)
  /-- a tag with no record (R112) -/
  | unknown (tag : Byte)
  /-- a registered tag whose payload runs past the end of the bytes (R335) -/
  | truncated (tag : Byte)
  /-- no byte in tag position (R333) -/
  | empty
  deriving DecidableEq, Repr

/-- An entry with a 1-byte payload (format S1). -/
def readOne (mk : Byte → Instr) (tag : Byte) : List Byte → EntryRead
  | b0 :: rest => .entry (mk b0) rest
  | _ => .truncated tag

/-- An entry with a 2-byte payload (format S2). -/
def readTwo (mk : Half → Instr) (tag : Byte) : List Byte → EntryRead
  | b0 :: b1 :: rest => .entry (mk (le16 b0 b1)) rest
  | _ => .truncated tag

/-- An entry with a 4-byte payload (format S4). -/
def readFour (mk : Word → Instr) (tag : Byte) : List Byte → EntryRead
  | b0 :: b1 :: b2 :: b3 :: rest => .entry (mk (le32 b0 b1 b2 b3)) rest
  | _ => .truncated tag

/-- An entry of three 1-byte elements (format A(1,3)). -/
def readArray13 (mk : Byte → Byte → Byte → Instr) (tag : Byte) : List Byte → EntryRead
  | b0 :: b1 :: b2 :: rest => .entry (mk b0 b1 b2) rest
  | _ => .truncated tag

/-- An entry of four 1-byte elements (format A(1,4)). -/
def readArray14 (mk : Byte → Byte → Byte → Byte → Instr) (tag : Byte) : List Byte → EntryRead
  | b0 :: b1 :: b2 :: b3 :: rest => .entry (mk b0 b1 b2 b3) rest
  | _ => .truncated tag

/-- An entry of three 4-byte elements (format A(4,3)). -/
def readArray43 (mk : Word → Word → Word → Instr) (tag : Byte) : List Byte → EntryRead
  | b0 :: b1 :: b2 :: b3 :: c0 :: c1 :: c2 :: c3 :: d0 :: d1 :: d2 :: d3 :: rest =>
    .entry (mk (le32 b0 b1 b2 b3) (le32 c0 c1 c2 c3) (le32 d0 d1 d2 d3)) rest
  | _ => .truncated tag

/-- A DateTimeRecord entry (format DT, R95). -/
def readDateTime (mk : Half → Byte → Byte → Byte → Byte → Byte → Instr) (tag : Byte) : List Byte → EntryRead
  | y0 :: y1 :: month :: day :: hour :: minute :: second :: rest =>
    .entry (mk (le16 y0 y1) month day hour minute second) rest
  | _ => .truncated tag

/-- The entry that a tag opens, from the bytes after the tag (R99; unregistered tags R112). -/
def decodeTag (tag : Byte) (p : List Byte) : EntryRead :=
  match tag.toNat with
  | 0x02 => .entry .stx p
  | 0x03 => .entry .etx p
  | 0x04 => readOne .swver tag p
  | 0x08 => readFour .source tag p
  | 0x09 => readTwo .battv tag p
  | 0x0a => readTwo .press tag p
  | 0x0b => readTwo .temp tag p
  | 0x0c => readTwo .humid tag p
  | 0x0d => readTwo .year tag p
  | 0x0e => readOne .month tag p
  | 0x0f => readOne .day tag p
  | 0x10 => readOne .hour tag p
  | 0x11 => readOne .min tag p
  | 0x12 => readOne .sec tag p
  | 0x13 => readTwo .millis tag p
  | 0x14 => readDateTime .datetime tag p
  | 0x15 => readFour .lat tag p
  | 0x16 => readFour .lon tag p
  | 0x17 => readFour .alt tag p
  | 0x18 => readFour .speed tag p
  | 0x19 => readFour .head tag p
  | 0x1a => readOne .sats tag p
  | 0x1b => readTwo .pdop tag p
  | 0x1c => readOne .fix tag p
  | 0x1d => readArray13 .geofstat tag p
  | 0x20 => readOne .userval1 tag p
  | 0x21 => readOne .userval2 tag p
  | 0x22 => readTwo .userval3 tag p
  | 0x23 => readTwo .userval4 tag p
  | 0x24 => readFour .userval5 tag p
  | 0x25 => readFour .userval6 tag p
  | 0x26 => readFour .userval7 tag p
  | 0x27 => readFour .userval8 tag p
  | 0x30 => readArray43 .mofields tag p
  | 0x31 => readOne .flags1 tag p
  | 0x32 => readOne .flags2 tag p
  | 0x33 => readFour .dest tag p
  | 0x34 => readTwo .hipress tag p
  | 0x35 => readTwo .lopress tag p
  | 0x36 => readTwo .hitemp tag p
  | 0x37 => readTwo .lotemp tag p
  | 0x38 => readTwo .hihumid tag p
  | 0x39 => readTwo .lohumid tag p
  | 0x3a => readOne .geofnum tag p
  | 0x3b => readFour .geof1lat tag p
  | 0x3c => readFour .geof1lon tag p
  | 0x3d => readFour .geof1rad tag p
  | 0x3e => readFour .geof2lat tag p
  | 0x3f => readFour .geof2lon tag p
  | 0x40 => readFour .geof2rad tag p
  | 0x41 => readFour .geof3lat tag p
  | 0x42 => readFour .geof3lon tag p
  | 0x43 => readFour .geof3rad tag p
  | 0x44 => readFour .geof4lat tag p
  | 0x45 => readFour .geof4lon tag p
  | 0x46 => readFour .geof4rad tag p
  | 0x47 => readTwo .wakeint tag p
  | 0x48 => readTwo .alarmint tag p
  | 0x49 => readTwo .txint tag p
  | 0x4a => readTwo .lowbatt tag p
  | 0x4b => readOne .dynmodel tag p
  | 0x52 => readArray14 .rbhead tag p
  | 0x58 => .entry .userfunc1 p
  | 0x59 => .entry .userfunc2 p
  | 0x5a => .entry .userfunc3 p
  | 0x5b => .entry .userfunc4 p
  | 0x5c => readTwo .userfunc5 tag p
  | 0x5d => readTwo .userfunc6 tag p
  | 0x5e => readFour .userfunc7 tag p
  | 0x5f => readFour .userfunc8 tag p
  | _ => .unknown tag

/-- One entry from the front of a byte string. -/
def decodeEntry : List Byte → EntryRead
  | [] => .empty
  | tag :: p => decodeTag tag p

/-- The command a code names (R120); `none` for the illegal codes (R121). -/
def decodeCommand (code : Byte) : Option Instr :=
  match code.toNat with
  | 0x00 => some .nop
  | 0x01 => some .encBegin
  | 0x02 => some .encField
  | 0x03 => some .encEnd
  | 0x10 => some .decRun
  | 0x20 => some .regTypeof
  | 0x21 => some .regScaleof
  | 0xff => some .reset
  | _ => none

/-- Decoding in either space; the rest is what follows the instruction. -/
def decode (sp : Space) (bytes : List Byte) : Option (Instr × List Byte) :=
  match sp, bytes with
  | .command, code :: rest => (decodeCommand code).map fun i => (i, rest)
  | .command, [] => none
  | .entry, bs =>
    match decodeEntry bs with
    | .entry i rest => some (i, rest)
    | _ => none

/-- The bytes of an instruction: a command's code (R120), or an entry's tag and payload (R92 to R95). -/
def encode : Instr → List Byte
  | .stx => [0x02]
  | .etx => [0x03]
  | .swver u => 0x04 :: leBytes 1 u.toNat
  | .source u => 0x08 :: leBytes 4 u.toNat
  | .battv u => 0x09 :: leBytes 2 u.toNat
  | .press u => 0x0a :: leBytes 2 u.toNat
  | .temp u => 0x0b :: leBytes 2 u.toNat
  | .humid u => 0x0c :: leBytes 2 u.toNat
  | .year u => 0x0d :: leBytes 2 u.toNat
  | .month u => 0x0e :: leBytes 1 u.toNat
  | .day u => 0x0f :: leBytes 1 u.toNat
  | .hour u => 0x10 :: leBytes 1 u.toNat
  | .min u => 0x11 :: leBytes 1 u.toNat
  | .sec u => 0x12 :: leBytes 1 u.toNat
  | .millis u => 0x13 :: leBytes 2 u.toNat
  | .datetime year month day hour minute second =>
    0x14 :: (leBytes 2 year.toNat ++ [month, day, hour, minute, second])
  | .lat u => 0x15 :: leBytes 4 u.toNat
  | .lon u => 0x16 :: leBytes 4 u.toNat
  | .alt u => 0x17 :: leBytes 4 u.toNat
  | .speed u => 0x18 :: leBytes 4 u.toNat
  | .head u => 0x19 :: leBytes 4 u.toNat
  | .sats u => 0x1a :: leBytes 1 u.toNat
  | .pdop u => 0x1b :: leBytes 2 u.toNat
  | .fix u => 0x1c :: leBytes 1 u.toNat
  | .geofstat e0 e1 e2 => [0x1d, e0, e1, e2]
  | .userval1 u => 0x20 :: leBytes 1 u.toNat
  | .userval2 u => 0x21 :: leBytes 1 u.toNat
  | .userval3 u => 0x22 :: leBytes 2 u.toNat
  | .userval4 u => 0x23 :: leBytes 2 u.toNat
  | .userval5 u => 0x24 :: leBytes 4 u.toNat
  | .userval6 u => 0x25 :: leBytes 4 u.toNat
  | .userval7 u => 0x26 :: leBytes 4 u.toNat
  | .userval8 u => 0x27 :: leBytes 4 u.toNat
  | .mofields e0 e1 e2 => 0x30 :: (leBytes 4 e0.toNat ++ leBytes 4 e1.toNat ++ leBytes 4 e2.toNat)
  | .flags1 u => 0x31 :: leBytes 1 u.toNat
  | .flags2 u => 0x32 :: leBytes 1 u.toNat
  | .dest u => 0x33 :: leBytes 4 u.toNat
  | .hipress u => 0x34 :: leBytes 2 u.toNat
  | .lopress u => 0x35 :: leBytes 2 u.toNat
  | .hitemp u => 0x36 :: leBytes 2 u.toNat
  | .lotemp u => 0x37 :: leBytes 2 u.toNat
  | .hihumid u => 0x38 :: leBytes 2 u.toNat
  | .lohumid u => 0x39 :: leBytes 2 u.toNat
  | .geofnum u => 0x3a :: leBytes 1 u.toNat
  | .geof1lat u => 0x3b :: leBytes 4 u.toNat
  | .geof1lon u => 0x3c :: leBytes 4 u.toNat
  | .geof1rad u => 0x3d :: leBytes 4 u.toNat
  | .geof2lat u => 0x3e :: leBytes 4 u.toNat
  | .geof2lon u => 0x3f :: leBytes 4 u.toNat
  | .geof2rad u => 0x40 :: leBytes 4 u.toNat
  | .geof3lat u => 0x41 :: leBytes 4 u.toNat
  | .geof3lon u => 0x42 :: leBytes 4 u.toNat
  | .geof3rad u => 0x43 :: leBytes 4 u.toNat
  | .geof4lat u => 0x44 :: leBytes 4 u.toNat
  | .geof4lon u => 0x45 :: leBytes 4 u.toNat
  | .geof4rad u => 0x46 :: leBytes 4 u.toNat
  | .wakeint u => 0x47 :: leBytes 2 u.toNat
  | .alarmint u => 0x48 :: leBytes 2 u.toNat
  | .txint u => 0x49 :: leBytes 2 u.toNat
  | .lowbatt u => 0x4a :: leBytes 2 u.toNat
  | .dynmodel u => 0x4b :: leBytes 1 u.toNat
  | .rbhead e0 e1 e2 e3 => [0x52, e0, e1, e2, e3]
  | .userfunc1 => [0x58]
  | .userfunc2 => [0x59]
  | .userfunc3 => [0x5a]
  | .userfunc4 => [0x5b]
  | .userfunc5 u => 0x5c :: leBytes 2 u.toNat
  | .userfunc6 u => 0x5d :: leBytes 2 u.toNat
  | .userfunc7 u => 0x5e :: leBytes 4 u.toNat
  | .userfunc8 u => 0x5f :: leBytes 4 u.toNat
  | .nop => [0x00]
  | .encBegin => [0x01]
  | .encField => [0x02]
  | .encEnd => [0x03]
  | .decRun => [0x10]
  | .regTypeof => [0x20]
  | .regScaleof => [0x21]
  | .reset => [0xff]

/-- The length in bytes of the longest instruction (MOFIELDS: a tag and 12 payload bytes). -/
def longestInstr : Nat := 13

/-- The bytes of a table word: `n` bytes, bit 0 of the word the least significant bit of the first byte, then zero bytes up
to the longest instruction. -/
def tableBytes (nbits w : Nat) : List Byte :=
  let n := (nbits + 7) / 8
  leBytes n w ++ List.replicate (longestInstr - n) 0

/-- The command a table word names, when it is one byte long. -/
def tableCommand (nbits w : Nat) : Option Instr :=
  if nbits ≤ 8 then decodeCommand (BitVec.ofNat 8 w) else none

/-- The instruction that the decoder reads from a table word. The table numbers commands and tags in one space of 8 bits;
the five values that are both are read as commands (log 7). -/
def decodeTableWord (nbits w : Nat) : Option Instr :=
  match tableCommand nbits w with
  | some i => some i
  | none => (decode .entry (tableBytes nbits w)).map Prod.fst

end Sys2Proof
end

