-- ==== Sys2Proof/Machine/State.lean ====
section
/-! DEFINITION. The state of the block (10_state.md) as plain data, the reasons a step could stop, and the state after a
power-on reset (R450 of 70_reset_and_hazards.md). Reserved codes that a rule says never occur (ESTATE 3, DSTATE 3, CRES 9 to
255) are not representable: those registers are enumerations, whose codes are in Flags.lean (log 17). -/

namespace Sys2Proof.Machine

/-- The result codes 0 to 8 of R400. -/
inductive ResultCode where
  | ok
  | unknownField
  | malformedMessage
  | truncatedMessage
  | checksumMismatch
  | invalidFieldValue
  | bufferOverflow
  | sequenceError
  | illegalCommand
  deriving DecidableEq, Repr

/-- ESTATE (R29): no message begun since reset; STX emitted; message complete. -/
inductive EState where
  | eIdle
  | eOpen
  | eDone
  deriving DecidableEq, Repr

/-- DSTATE (R31): no decode since reset; the last DEC_RUN succeeded; the last DEC_RUN failed. -/
inductive DState where
  | dIdle
  | dOk
  | dFail
  deriving DecidableEq, Repr

/-- The contents of a valid result slot (R34): its element count and its eight elements. -/
structure Slot where
  n : BitVec 4
  e : Vector Word 8
  deriving DecidableEq, Repr

/-- A buffer: the bytes that something has written since power-on, as (offset, byte) pairs with rising offsets. An offset
that is not listed holds any value (R41). -/
abbrev Memory := List Host.Cell

/-- The result store (R34): the valid slots, as (identifier, slot) pairs with rising identifiers. `RV[id]` is 1 exactly when
`id` is listed; a slot that is not listed reads as all zeros (R35, log 8). -/
abbrev ResultStore := List (Nat × Slot)

/-- What the host, or the platform's reset line, does next (R21). -/
inductive HostAccess where
  /-- a write of up to 32 bits at a byte offset of the register map (R386) -/
  | write (offset : Nat) (value : Word)
  /-- a read at a byte offset: it changes no state (R21, R68) -/
  | read (offset : Nat)
  /-- a power-on or hardware reset (R21 (d), R450) -/
  | powerOn
  deriving DecidableEq, Repr

/-- The state of the block. The last group of fields is the model's own (logs 1, 3 and 5). -/
structure State where
  /-- OP_ID (R23) -/
  opId : Byte
  /-- OP_KIND (R23, R24) -/
  opKind : BitVec 3
  /-- OP_N (R23) -/
  opN : BitVec 4
  /-- OP_EXP, stored as 8 bits and read as signed (R23, R25) -/
  opExp : Byte
  /-- OP_MANT[31:0], a register of its own (R25) -/
  opMantLo : Word
  /-- OP_MANT[63:32], a register of its own (R25) -/
  opMantHi : Word
  /-- OPE[0..7] (R23) -/
  ope : Vector Word 8
  /-- CRES (R27) -/
  cres : ResultCode
  /-- ESTATE (R29) -/
  estate : EState
  /-- OBUF (R29, R41) -/
  obuf : Memory
  /-- WC, the write cursor (R29, R30) -/
  wc : Half
  /-- EA, checksum accumulator a of the encoder (R29) -/
  ea : Byte
  /-- EB, checksum accumulator b of the encoder (R29) -/
  eb : Byte
  /-- EFCNT (R29) -/
  efcnt : Half
  /-- EWCNT (R29) -/
  ewcnt : Half
  /-- ADV_LEN (R29, R290) -/
  advLen : Bool
  /-- IBUF (R31, R41) -/
  ibuf : Memory
  /-- ILEN (R31, R32) -/
  ilen : Half
  /-- DSTATE (R31) -/
  dstate : DState
  /-- DERR (R31) -/
  derr : ResultCode
  /-- DPOS (R31) -/
  dpos : Half
  /-- DTAG (R31) -/
  dtag : Byte
  /-- DA (R31) -/
  da : Byte
  /-- DB (R31) -/
  db : Byte
  /-- DHDR (R31) -/
  dhdr : Bool
  /-- DCNT (R31) -/
  dcnt : Half
  /-- RV and RES (R34 to R36) -/
  res : ResultStore
  /-- Q_TYPE (R38, R125) -/
  qType : BitVec 18
  /-- Q_SCALE (R38, R126) -/
  qScale : BitVec 9
  /-- MODEL'S OWN: the state stands inside a DEC_RUN, between two turns of its loop (log 3) -/
  walking : Bool
  /-- MODEL'S OWN: `off` of R330, the start offset of the message being walked; 0 outside a walk -/
  dOff : Nat
  /-- MODEL'S OWN: `RC` of R31 and R33, the read cursor, which exists only inside DEC_RUN; 0 outside a walk -/
  rc : Nat
  /-- MODEL'S OWN: the host's accesses still to come, oldest first (log 1) -/
  pending : List HostAccess
  /-- MODEL'S OWN: the number of power-on resets taken, the index of the free value of unwritten bytes (log 5) -/
  epoch : Nat
  deriving DecidableEq, Repr

/-- Nothing halts the block: every command completes and every access has a defined result (R421 to R423), so no step
faults and the type has no constructor. -/
inductive Fault where
  deriving DecidableEq, Repr

/-- Why a step could refuse. -/
inductive Refusal where
  /-- Raised by an arm of `exec` alone, for an instruction that has no meaning yet; safe, since the run stops. No arm of
  this model raises it. -/
  | notModelled (mnemonic : String)
  deriving DecidableEq, Repr

/-- The state right after a power-on reset (R450): every register 0, nothing begun, no slot valid, buffer bytes of any value.
The model's own fields are at rest (logs 1, 3 and 5). -/
def State.reset : State where
  opId := 0
  opKind := 0
  opN := 0
  opExp := 0
  opMantLo := 0
  opMantHi := 0
  ope := #v[0, 0, 0, 0, 0, 0, 0, 0]
  cres := .ok
  estate := .eIdle
  obuf := []
  wc := 0
  ea := 0
  eb := 0
  efcnt := 0
  ewcnt := 0
  advLen := false
  ibuf := []
  ilen := 0
  dstate := .dIdle
  derr := .ok
  dpos := 0
  dtag := 0
  da := 0
  db := 0
  dhdr := false
  dcnt := 0
  res := []
  qType := 0
  qScale := 0
  walking := false
  dOff := 0
  rc := 0
  pending := []
  epoch := 0

end Sys2Proof.Machine
end

