-- ==== Sys2Proof/Machine/Flags.lean ====
section
/-! DEFINITION. The flags and status of the block (R39: it has no arithmetic condition codes): the numbers of the result
codes and state fields, the STATUS view (R28), the length advisory (R290), saturating counts (R29, R31), and the running
checksum (44_checksum.md). -/

namespace Sys2Proof.Machine

/-- The number of a result code (R400). -/
def resultNumber : ResultCode → Byte
  | .ok => 0
  | .unknownField => 1
  | .malformedMessage => 2
  | .truncatedMessage => 3
  | .checksumMismatch => 4
  | .invalidFieldValue => 5
  | .bufferOverflow => 6
  | .sequenceError => 7
  | .illegalCommand => 8

/-- The two bits of ESTATE (R29). -/
def estateBits : EState → BitVec 2
  | .eIdle => 0
  | .eOpen => 1
  | .eDone => 2

/-- The two bits of DSTATE (R31). -/
def dstateBits : DState → BitVec 2
  | .dIdle => 0
  | .dOk => 1
  | .dFail => 2

/-- STATUS (R28): bits 1:0 ESTATE, 3:2 DSTATE, 4 ADV_LEN, 5 DHDR, the rest 0. -/
def statusWord (s : State) : Word :=
  (0 : BitVec 26) ++ BitVec.ofBool s.dhdr ++ BitVec.ofBool s.advLen ++ dstateBits s.dstate ++ estateBits s.estate

/-- The length advisory of a finished message of `len` bytes (R290). -/
def lengthAdvisory (len : Nat) : Bool :=
  decide (Config.transportLimit < len)

/-- `min(x + 1, 65535)` on a 16-bit count (R29, R31). -/
def satInc (x : Half) : Half :=
  BitVec.ofNat 16 (min (x.toNat + 1) 65535)

/-- One step of the running checksum (R312): `a` first, then `b` adds the new `a`; both wrap at 256. -/
def fletcherStep (ab : Byte × Byte) (v : Byte) : Byte × Byte :=
  (ab.1 + v, ab.2 + (ab.1 + v))

/-- `Fletcher(bytes)` of R311. -/
def fletcher (bytes : List Byte) : Byte × Byte :=
  bytes.foldl fletcherStep (0, 0)

end Sys2Proof.Machine
end

