-- ==== Sys2Proof/Machine/Registry.lean ====
section
/-! DEFINITION. The Field Registry (40_registry.md): payload lengths (R96), type ranges (R274), range descriptors (R148),
the packing of the two registry answers (R125, R126), REG_DEFAULT (R147: the records of R150 to R160, R180 to R210 and
R220 to R247) and the default parameters (R7). -/

namespace Sys2Proof.Machine

/-- Bytes of one element or scalar (R140). -/
def widthBytes : Width → Nat
  | .one => 1
  | .two => 2
  | .four => 4

/-- `paylen` of R96: the payload length in bytes. -/
def paylen : FieldType → Nat
  | .marker => 0
  | .scalar w _ _ => widthBytes w
  | .fixedArray ew c => widthBytes ew * c
  | .dateTime => 7

/-- The least raw value of the wire type (`tmin` of R270). -/
def tmin (w : Width) (signed : Bool) : Int :=
  if signed then -(2 : Int) ^ (8 * widthBytes w - 1) else 0

/-- The greatest raw value of the wire type (`tmax` of R270). -/
def tmax (w : Width) (signed : Bool) : Int :=
  if signed then (2 : Int) ^ (8 * widthBytes w - 1) - 1 else (2 : Int) ^ (8 * widthBytes w) - 1

/-- `accepts(range, raw)` of R148 for a raw value that already lies in the type's range. -/
def rangeAccepts : FieldRange → Int → Bool
  | .full, _ => true
  | .interval lo hi, raw => decide (lo ≤ raw) && decide (raw ≤ hi)
  | .nibbles hmax lmax, raw =>
    decide (0 ≤ raw) && decide (raw ≤ 255) && decide (raw / 16 ≤ hmax) && decide (raw % 16 ≤ lmax)

/-- `kind` of the Q_TYPE layout (R125). -/
def typeKind : FieldType → Nat
  | .marker => 1
  | .scalar _ _ _ => 2
  | .fixedArray _ _ => 3
  | .dateTime => 4

/-- `width` of the Q_TYPE layout (R125, R141). -/
def typeWidth : FieldType → Nat
  | .marker => 0
  | .scalar w _ _ => widthBytes w
  | .fixedArray ew _ => widthBytes ew
  | .dateTime => 0

/-- `count` of the Q_TYPE layout (R125), which is also the element count `n` of a valid result slot (R36). -/
def typeCount : FieldType → Nat
  | .marker => 0
  | .scalar _ _ _ => 1
  | .fixedArray _ c => c
  | .dateTime => 6

/-- `signed` of the Q_TYPE layout: signed and not float (R141). -/
def typeSigned : FieldType → Bool
  | .scalar _ signed isFloat => signed && !isFloat
  | _ => false

/-- `isFloat` of the Q_TYPE layout (R125). -/
def typeFloat : FieldType → Bool
  | .scalar _ _ isFloat => isFloat
  | _ => false

/-- `pack_type` of R141: Q_TYPE with the field places of R125. -/
def packType (t : FieldType) : BitVec 18 :=
  BitVec.ofNat 18 (typeKind t + 2 ^ 3 * typeWidth t + 2 ^ 6 * (typeSigned t).toNat + 2 ^ 7 * (typeFloat t).toNat
    + 2 ^ 8 * typeCount t + 2 ^ 12 * paylen t)

/-- Q_SCALE of a registered field (R126, R142): bit 8 says that there is a factor, bits 7 to 0 its exponent as an i8. -/
def packScale : Option Int → BitVec 9
  | none => 0
  | some k => BitVec.ofNat 9 (0x100 + (k % 256).toNat)

/-- Class of a tag (R97, R140): informative, no rule reads it (R149). -/
inductive TagClass where
  | framing
  | telemetry
  | config
  | gateway
  | userfunc
  deriving DecidableEq, Repr

/-- The disjoint ranges of R97; `none` for the tags outside all of them. -/
def tagClass (tag : Byte) : Option TagClass :=
  let t := tag.toNat
  if t = 0x02 ∨ t = 0x03 then some .framing
  else if 0x04 ≤ t ∧ t ≤ 0x2f then some .telemetry
  else if 0x30 ≤ t ∧ t ≤ 0x4b then some .config
  else if t = 0x52 then some .gateway
  else if 0x58 ≤ t ∧ t ≤ 0x5f then some .userfunc
  else none

/-- A Marker record. -/
def markerRecord (name : String) : Option Record :=
  some { name := name, type := .marker, scale := none, range := .full }

/-- An unscaled unsigned integer Scalar with range FULL. -/
def unsignedRecord (name : String) (w : Width) : Option Record :=
  some { name := name, type := .scalar w false false, scale := none, range := .full }

/-- A scaled integer Scalar with range FULL. -/
def scaledRecord (name : String) (w : Width) (signed : Bool) (k : Int) : Option Record :=
  some { name := name, type := .scalar w signed false, scale := some k, range := .full }

/-- A binary32 Scalar. -/
def floatRecord (name : String) : Option Record :=
  some { name := name, type := .scalar .four false true, scale := none, range := .full }

/-- A FixedArray record. -/
def arrayRecord (name : String) (ew : Width) (c : Nat) : Option Record :=
  some { name := name, type := .fixedArray ew c, scale := none, range := .full }

/-- REG_DEFAULT (R147): 70 records, `none` everywhere else. Each arm follows the rule named beside it. -/
def regDefault (tag : Byte) : Option Record :=
  match tag.toNat with
  | 0x02 => markerRecord "STX"  -- R150
  | 0x03 => markerRecord "ETX"  -- R151
  | 0x04 => unsignedRecord "SWVER" .one  -- R180
  | 0x08 => unsignedRecord "SOURCE" .four  -- R181
  | 0x09 => scaledRecord "BATTV" .two false (-2)  -- R182
  | 0x0a => unsignedRecord "PRESS" .two  -- R183
  | 0x0b => scaledRecord "TEMP" .two true (-2)  -- R184
  | 0x0c => scaledRecord "HUMID" .two false (-2)  -- R185
  | 0x0d => unsignedRecord "YEAR" .two  -- R186
  | 0x0e => unsignedRecord "MONTH" .one  -- R187
  | 0x0f => unsignedRecord "DAY" .one  -- R188
  | 0x10 => unsignedRecord "HOUR" .one  -- R189
  | 0x11 => unsignedRecord "MIN" .one  -- R190
  | 0x12 => unsignedRecord "SEC" .one  -- R191
  | 0x13 => unsignedRecord "MILLIS" .two  -- R192
  | 0x14 => some { name := "DATETIME", type := .dateTime, scale := none, range := .full }  -- R193
  | 0x15 => scaledRecord "LAT" .four true (-7)  -- R194
  | 0x16 => scaledRecord "LON" .four true (-7)  -- R195
  | 0x17 => scaledRecord "ALT" .four true (-3)  -- R196
  | 0x18 => scaledRecord "SPEED" .four true (-3)  -- R197
  | 0x19 => scaledRecord "HEAD" .four true (-7)  -- R198
  | 0x1a => unsignedRecord "SATS" .one  -- R199
  | 0x1b => scaledRecord "PDOP" .two false (-2)  -- R200
  | 0x1c => unsignedRecord "FIX" .one  -- R201
  | 0x1d => arrayRecord "GEOFSTAT" .one 3  -- R202
  | 0x20 => unsignedRecord "USERVAL1" .one  -- R203
  | 0x21 => unsignedRecord "USERVAL2" .one  -- R204
  | 0x22 => unsignedRecord "USERVAL3" .two  -- R205
  | 0x23 => unsignedRecord "USERVAL4" .two  -- R206
  | 0x24 => unsignedRecord "USERVAL5" .four  -- R207
  | 0x25 => unsignedRecord "USERVAL6" .four  -- R208
  | 0x26 => floatRecord "USERVAL7"  -- R209
  | 0x27 => floatRecord "USERVAL8"  -- R210
  | 0x30 => arrayRecord "MOFIELDS" .four 3  -- R220
  | 0x31 => unsignedRecord "FLAGS1" .one  -- R221
  | 0x32 => unsignedRecord "FLAGS2" .one  -- R222
  | 0x33 => unsignedRecord "DEST" .four  -- R223
  | 0x34 => some { name := "HIPRESS", type := .scalar .two false false, scale := none, range := .interval 0 1084 }  -- R224
  | 0x35 => unsignedRecord "LOPRESS" .two  -- R225
  | 0x36 => some { name := "HITEMP", type := .scalar .two true false, scale := some (-2), range := .interval (-4000) 8500 }  -- R226
  | 0x37 => scaledRecord "LOTEMP" .two true (-2)  -- R227
  | 0x38 => scaledRecord "HIHUMID" .two false (-2)  -- R228
  | 0x39 => scaledRecord "LOHUMID" .two false (-2)  -- R229
  | 0x3a => some { name := "GEOFNUM", type := .scalar .one false false, scale := none, range := .nibbles 4 4 }  -- R230
  | 0x3b => scaledRecord "GEOF1LAT" .four true (-7)  -- R231
  | 0x3c => scaledRecord "GEOF1LON" .four true (-7)  -- R232
  | 0x3d => scaledRecord "GEOF1RAD" .four false (-2)  -- R233
  | 0x3e => scaledRecord "GEOF2LAT" .four true (-7)  -- R234
  | 0x3f => scaledRecord "GEOF2LON" .four true (-7)  -- R235
  | 0x40 => scaledRecord "GEOF2RAD" .four false (-2)  -- R236
  | 0x41 => scaledRecord "GEOF3LAT" .four true (-7)  -- R237
  | 0x42 => scaledRecord "GEOF3LON" .four true (-7)  -- R238
  | 0x43 => scaledRecord "GEOF3RAD" .four false (-2)  -- R239
  | 0x44 => scaledRecord "GEOF4LAT" .four true (-7)  -- R240
  | 0x45 => scaledRecord "GEOF4LON" .four true (-7)  -- R241
  | 0x46 => scaledRecord "GEOF4RAD" .four false (-2)  -- R242
  | 0x47 => unsignedRecord "WAKEINT" .two  -- R243
  | 0x48 => unsignedRecord "ALARMINT" .two  -- R244
  | 0x49 => unsignedRecord "TXINT" .two  -- R245
  | 0x4a => scaledRecord "LOWBATT" .two false (-2)  -- R246
  | 0x4b => unsignedRecord "DYNMODEL" .one  -- R247
  | 0x52 => arrayRecord "RBHEAD" .one 4  -- R152
  | 0x58 => markerRecord "USERFUNC1"  -- R153
  | 0x59 => markerRecord "USERFUNC2"  -- R154
  | 0x5a => markerRecord "USERFUNC3"  -- R155
  | 0x5b => markerRecord "USERFUNC4"  -- R156
  | 0x5c => unsignedRecord "USERFUNC5" .two  -- R157
  | 0x5d => unsignedRecord "USERFUNC6" .two  -- R158
  | 0x5e => unsignedRecord "USERFUNC7" .four  -- R159
  | 0x5f => unsignedRecord "USERFUNC8" .four  -- R160
  | _ => none

/-- The parameters this model is run with: REG_DEFAULT and the default sizes of R7 (log 4). -/
def defaultParams : Params :=
  { reg := regDefault, ibufSize := 512, obufSize := 512 }

end Sys2Proof.Machine
end

