-- ==== Sys2Proof/Machine/Ops.lean ====
section
/-! DEFINITION. The named operations over the state: sorted tables, the two buffers (20_memory.md), the result store
(R34 to R36), the encoder's emit (R262), storing a decoded entry (R340 to R345), the error results (60_exceptions.md: the
block's exceptions; none transfers control and none is returned from), and the two resets. -/

namespace Sys2Proof.Machine

/-- What a table lists under a key. -/
def lookup {β : Type} : List (Nat × β) → Nat → Option β
  | [], _ => none
  | (k, v) :: t, a => if k = a then some v else lookup t a

/-- The table with `v` under `a`, keys rising. -/
def insert {β : Type} : List (Nat × β) → Nat → β → List (Nat × β)
  | [], a, v => [(a, v)]
  | (k, w) :: t, a, v =>
    if a < k then (a, v) :: (k, w) :: t
    else if k = a then (a, v) :: t
    else (k, w) :: insert t a v

/-- Keys rise strictly from `lo` on and stay below `size`. -/
def keysRise {β : Type} (size : Nat) : Nat → List (Nat × β) → Bool
  | _, [] => true
  | lo, (k, _) :: t => decide (lo ≤ k) && decide (k < size) && keysRise size (k + 1) t

/-- The canonical form of a buffer of `size` bytes: offsets rise strictly and stay inside the buffer. What an unlisted offset
reads as is no value a program could write down (R41), so no listed byte can equal it. -/
def Memory.wf (size : Nat) (m : Memory) : Bool :=
  keysRise size 0 m

/-- The canonical form of the result store: 256 slots (R34). -/
def ResultStore.wf (r : ResultStore) : Bool :=
  keysRise 256 0 r

/-- A byte write into a buffer of `size` bytes; outside the buffer nothing is written (R11 MemWrite, R32, R72, log 9). -/
def bufWrite (size : Nat) (m : Memory) (a : Nat) (v : Byte) : Memory :=
  if a < size then insert m a v else m

/-- Byte `a` of IBUF: the last byte written there, else any value (R41). -/
def ibufByte (s : State) (a : Nat) : Byte :=
  (lookup s.ibuf a).getD (Config.powerOnByte s.epoch .ibuf a)

/-- Byte `a` of OBUF: the last byte written there, else any value (R41). -/
def obufByte (s : State) (a : Nat) : Byte :=
  (lookup s.obuf a).getD (Config.powerOnByte s.epoch .obuf a)

/-- `IBufRead(a, n)` of R11: the bytes `IBUF[a] .. IBUF[a+n-1]`. -/
def ibufRead (s : State) (a n : Nat) : List Byte :=
  (List.range n).map fun i => ibufByte s (a + i)

/-- The bytes `OBUF[a] .. OBUF[a+n-1]`. -/
def obufRead (s : State) (a n : Nat) : List Byte :=
  (List.range n).map fun i => obufByte s (a + i)

/-- The slot that reads when `RV[id] = 0`: all zeros (R35). -/
def zeroSlot : Slot :=
  { n := 0, e := #v[0, 0, 0, 0, 0, 0, 0, 0] }

/-- A slot that holds these elements in order, `n` of them, the rest 0 (R36). -/
def slotOfElems (es : List Word) : Slot :=
  { n := BitVec.ofNat 4 es.length
    e := #v[es.getD 0 0, es.getD 1 0, es.getD 2 0, es.getD 3 0, es.getD 4 0, es.getD 5 0, es.getD 6 0, es.getD 7 0] }

/-- `RV[id]` (R34). -/
def resValid (s : State) (id : Nat) : Bool :=
  (lookup s.res id).isSome

/-- `RES[id]` (R34, R35): zeros when the slot is not valid. -/
def resSlot (s : State) (id : Nat) : Slot :=
  (lookup s.res id).getD zeroSlot

/-- `OP_MANT` (R23, R25): the two halves as one 64-bit value. -/
def opMant (s : State) : BitVec 64 :=
  s.opMantHi ++ s.opMantLo

/-! ## Error results -/

/-- `fail(code, pos, tag)` of R330, the common entry of a decode error (R410): the result store is emptied and the command
ends. The walk is over. -/
def decFail (code : ResultCode) (pos : Nat) (tag : Byte) (s : State) : State :=
  { s with
    res := []
    dcnt := 0
    dstate := .dFail
    derr := code
    dpos := BitVec.ofNat 16 pos
    dtag := tag
    cres := code
    walking := false
    dOff := 0
    rc := 0 }

/-- `skip(code)` of R263: the field is dropped, the message stays open (R401 encode warning). -/
def encSkip (code : ResultCode) (s : State) : State :=
  { s with ewcnt := satInc s.ewcnt, cres := code }

/-- Lines 10 and 11 of R263: the emitted field is counted and the answer is OK. -/
def encCount (s : State) : State :=
  { s with efcnt := satInc s.efcnt, cres := .ok }

/-- A usage error changes nothing but CRES (R401, R418, R419). -/
def usageError (code : ResultCode) (s : State) : State :=
  { s with cres := code }

/-! ## Encoder and decoder operations -/

/-- `emit(v)` of R262. -/
def emit (C : Params) (v : Byte) (s : State) : State :=
  { s with
    obuf := bufWrite C.obufSize s.obuf s.wc.toNat v
    wc := s.wc + 1
    ea := s.ea + v
    eb := s.eb + (s.ea + v) }

/-- `emit` of each byte, first to last (R263 line 9). -/
def emitAll (C : Params) : List Byte → State → State
  | [], s => s
  | v :: vs, s => emitAll C vs (emit C v s)

/-- A byte appended without the checksum, as the two checksum bytes are (R288). -/
def appendRaw (C : Params) (v : Byte) (s : State) : State :=
  { s with obuf := bufWrite C.obufSize s.obuf s.wc.toNat v, wc := s.wc + 1 }

/-- `store(t, d, payload)` of R330 with the slot already formed, the entry count and the cursor's move (R336, R345): the whole
slot is overwritten. -/
def storeEntry (tag : Byte) (slot : Slot) (payloadLen : Nat) (s : State) : State :=
  { s with
    res := insert s.res tag.toNat slot
    dcnt := satInc s.dcnt
    rc := s.rc + 1 + payloadLen }

/-! ## Resets -/

/-- The RESET command's effect (R382): every register and the result store as after power-on; the buffers' bytes stay. -/
def commandReset (s : State) : State :=
  { State.reset with obuf := s.obuf, ibuf := s.ibuf, pending := s.pending, epoch := s.epoch }

/-- A power-on reset (R450): the state of `State.reset`, buffer bytes of any value again. The host's accesses still to come
are outside the block and stay. -/
def powerOn (s : State) : State :=
  { State.reset with pending := s.pending, epoch := s.epoch + 1 }

end Sys2Proof.Machine
end

