-- ==== Sys2Proof/Machine/Decoder.lean ====
section
/-! DEFINITION. The decoder (45_decoder.md): DEC_RUN's steps 0 to 5 of R330 over any parameters, one turn of its loop, and its
meaning with the default parameters. -/

namespace Sys2Proof.Machine

/-- The `i`-th element of `ew` bytes of a payload (R343). -/
def payloadElem (p : List Byte) (ew i : Nat) : Word :=
  BitVec.ofNat 32 (leUint ((p.drop (i * ew)).take ew))

/-- The slot a payload is stored as, by field type (R340 to R344, R36). A float's pattern and an unsigned integer are stored
as they are, a signed integer sign-extended; nothing is range checked (R341). -/
def slotOf (t : FieldType) (p : List Byte) : Slot :=
  match t with
  | .marker => slotOfElems []
  | .scalar w true false => slotOfElems [BitVec.ofInt 32 (toSigned (widthBytes w) (leUint p))]
  | .scalar _ _ _ => slotOfElems [BitVec.ofNat 32 (leUint p)]
  | .fixedArray ew c => slotOfElems ((List.range c).map (payloadElem p (widthBytes ew)))
  | .dateTime =>
    slotOfElems (BitVec.ofNat 32 (leUint (p.take 2)) :: (List.range 5).map fun i => payloadElem (p.drop 2) 1 i)

/-- Step 0 of R330: the result store and the decoder's result registers are cleared. DSTATE and DERR keep their values until
the command ends. -/
def decClear (s : State) : State :=
  { s with res := [], dcnt := 0, da := 0, db := 0, dhdr := false, dtag := 0, dpos := 0 }

/-- Steps 1 and 2 of R330 (R331, R332) at the start offset `off`: STX must stand there; then the walk begins after it. -/
def decOpen (off : Nat) (s : State) : State :=
  if s.ilen.toNat ≤ off then decFail .malformedMessage off 0 s
  else if ibufByte s off = Config.stx then { s with walking := true, dOff := off, rc := off + 1 }
  else decFail .malformedMessage off 0 s

/-- Steps 0 to 2 of R330: clear, choose the start offset (R331), open the walk. -/
def decStart (s : State) : State :=
  let t := decClear s
  if t.ilen = 0 then decFail .malformedMessage 0 0 t
  else if ibufByte t 0 = Config.stx then decOpen 0 t
  else decOpen Config.hdrLen { t with dhdr := true }

/-- The checksum of the span from STX to the ETX at the cursor (R314, R319). -/
def spanChecksum (s : State) : Byte × Byte :=
  fletcher (ibufRead s s.dOff (s.rc + 1 - s.dOff))

/-- Step 5 of R330 (R339): the decode succeeded; the walk is over. -/
def decFinish (s : State) : State :=
  { s with
    dstate := .dOk
    derr := .ok
    dpos := BitVec.ofNat 16 (s.rc + 3)
    dtag := 0
    cres := .ok
    walking := false
    dOff := 0
    rc := 0 }

/-- Steps 4 and 5 of R330, at an ETX under the cursor (R337, R338, R339). -/
def decEnd (s : State) : State :=
  let ck := spanChecksum s
  let t := { s with da := ck.1, db := ck.2 }
  if s.ilen.toNat < s.rc + 3 then decFail .truncatedMessage (s.rc + 1) 0 t
  else if ck.1 = ibufByte s (s.rc + 1) ∧ ck.2 = ibufByte s (s.rc + 2) then decFinish t
  else decFail .checksumMismatch (s.rc + 1) 0 t

/-- One entry under the cursor whose tag has the record `d` (R335, R336, R340 to R345). -/
def decRecord (d : Record) (tag : Byte) (s : State) : State :=
  let len := paylen d.type
  if s.ilen.toNat < s.rc + 1 + len then decFail .truncatedMessage s.rc tag s
  else storeEntry tag (slotOf d.type (ibufRead s (s.rc + 1) len)) len s

/-- One turn of the loop of R330 step 3 at the cursor; at an ETX, steps 4 and 5 (R333 to R339). -/
def decStep (C : Params) (s : State) : State :=
  if s.ilen.toNat ≤ s.rc then decFail .malformedMessage s.rc 0 s
  else
    let tag := ibufByte s s.rc
    if tag = Config.etx then decEnd s
    else
      match C.reg tag with
      | none => decFail .unknownField s.rc tag s
      | some d => decRecord d tag s

/-- The loop of R330, at most `fuel` turns; it stops when the walk is over. -/
def decLoop (C : Params) : Nat → State → State
  | 0, s => s
  | fuel + 1, s => if s.walking then decLoop C fuel (decStep C s) else s

/-- DEC_RUN (R330). The cursor starts at 1 or later, moves forward by at least 1 each turn and never stands beyond ILEN, so
ILEN turns end every walk (R336, R351). -/
def decRun (C : Params) (s : State) : State :=
  decLoop C s.ilen.toNat (decStart s)

/-- DEC_RUN, command 0x10 (R330). -/
def execDecRun (s : State) : Host.Outcome State Fault Refusal :=
  .next (decRun defaultParams s)

end Sys2Proof.Machine
end

