-- ==== Sys2Proof/Machine/ConfigTags.lean ====
section
/-! DEFINITION. The configuration entries as instructions (42_fields_config.md, R220 to R247). Executing an entry is one turn of the
decoder's loop (R330 step 3): the slot of its tag is overwritten, the entry is counted, the cursor moves past it. -/

namespace Sys2Proof.Machine

/-- MOFIELDS, tag 0x30 (R220): three 32-bit elements (R343). -/
def execMofields (e0 e1 e2 : Word) (s : State) : Host.Outcome State Fault Refusal :=
  .next (storeEntry 0x30 (slotOfElems [e0, e1, e2]) 12 s)

/-- FLAGS1, tag 0x31 (R221): one element, zero-extended (R341). -/
def execFlags1 (u : Byte) (s : State) : Host.Outcome State Fault Refusal :=
  .next (storeEntry 0x31 (slotOfElems [u.setWidth 32]) 1 s)

/-- FLAGS2, tag 0x32 (R222): one element, zero-extended (R341). -/
def execFlags2 (u : Byte) (s : State) : Host.Outcome State Fault Refusal :=
  .next (storeEntry 0x32 (slotOfElems [u.setWidth 32]) 1 s)

/-- DEST, tag 0x33 (R223): one element, the 32 bits (R341). -/
def execDest (u : Word) (s : State) : Host.Outcome State Fault Refusal :=
  .next (storeEntry 0x33 (slotOfElems [u]) 4 s)

/-- HIPRESS, tag 0x34 (R224): one element, zero-extended (R341). -/
def execHipress (u : Half) (s : State) : Host.Outcome State Fault Refusal :=
  .next (storeEntry 0x34 (slotOfElems [u.setWidth 32]) 2 s)

/-- LOPRESS, tag 0x35 (R225): one element, zero-extended (R341). -/
def execLopress (u : Half) (s : State) : Host.Outcome State Fault Refusal :=
  .next (storeEntry 0x35 (slotOfElems [u.setWidth 32]) 2 s)

/-- HITEMP, tag 0x36 (R226): one element, sign-extended (R341). -/
def execHitemp (u : Half) (s : State) : Host.Outcome State Fault Refusal :=
  .next (storeEntry 0x36 (slotOfElems [u.signExtend 32]) 2 s)

/-- LOTEMP, tag 0x37 (R227): one element, sign-extended (R341). -/
def execLotemp (u : Half) (s : State) : Host.Outcome State Fault Refusal :=
  .next (storeEntry 0x37 (slotOfElems [u.signExtend 32]) 2 s)

/-- HIHUMID, tag 0x38 (R228): one element, zero-extended (R341). -/
def execHihumid (u : Half) (s : State) : Host.Outcome State Fault Refusal :=
  .next (storeEntry 0x38 (slotOfElems [u.setWidth 32]) 2 s)

/-- LOHUMID, tag 0x39 (R229): one element, zero-extended (R341). -/
def execLohumid (u : Half) (s : State) : Host.Outcome State Fault Refusal :=
  .next (storeEntry 0x39 (slotOfElems [u.setWidth 32]) 2 s)

/-- GEOFNUM, tag 0x3a (R230): one element, zero-extended (R341). -/
def execGeofnum (u : Byte) (s : State) : Host.Outcome State Fault Refusal :=
  .next (storeEntry 0x3a (slotOfElems [u.setWidth 32]) 1 s)

/-- GEOF1LAT, tag 0x3b (R231): one element, the 32 bits of the signed value (R341). -/
def execGeof1lat (u : Word) (s : State) : Host.Outcome State Fault Refusal :=
  .next (storeEntry 0x3b (slotOfElems [u]) 4 s)

/-- GEOF1LON, tag 0x3c (R232): one element, the 32 bits of the signed value (R341). -/
def execGeof1lon (u : Word) (s : State) : Host.Outcome State Fault Refusal :=
  .next (storeEntry 0x3c (slotOfElems [u]) 4 s)

/-- GEOF1RAD, tag 0x3d (R233): one element, the 32 bits (R341). -/
def execGeof1rad (u : Word) (s : State) : Host.Outcome State Fault Refusal :=
  .next (storeEntry 0x3d (slotOfElems [u]) 4 s)

/-- GEOF2LAT, tag 0x3e (R234): one element, the 32 bits of the signed value (R341). -/
def execGeof2lat (u : Word) (s : State) : Host.Outcome State Fault Refusal :=
  .next (storeEntry 0x3e (slotOfElems [u]) 4 s)

/-- GEOF2LON, tag 0x3f (R235): one element, the 32 bits of the signed value (R341). -/
def execGeof2lon (u : Word) (s : State) : Host.Outcome State Fault Refusal :=
  .next (storeEntry 0x3f (slotOfElems [u]) 4 s)

/-- GEOF2RAD, tag 0x40 (R236): one element, the 32 bits (R341). -/
def execGeof2rad (u : Word) (s : State) : Host.Outcome State Fault Refusal :=
  .next (storeEntry 0x40 (slotOfElems [u]) 4 s)

/-- GEOF3LAT, tag 0x41 (R237): one element, the 32 bits of the signed value (R341). -/
def execGeof3lat (u : Word) (s : State) : Host.Outcome State Fault Refusal :=
  .next (storeEntry 0x41 (slotOfElems [u]) 4 s)

/-- GEOF3LON, tag 0x42 (R238): one element, the 32 bits of the signed value (R341). -/
def execGeof3lon (u : Word) (s : State) : Host.Outcome State Fault Refusal :=
  .next (storeEntry 0x42 (slotOfElems [u]) 4 s)

/-- GEOF3RAD, tag 0x43 (R239): one element, the 32 bits (R341). -/
def execGeof3rad (u : Word) (s : State) : Host.Outcome State Fault Refusal :=
  .next (storeEntry 0x43 (slotOfElems [u]) 4 s)

/-- GEOF4LAT, tag 0x44 (R240): one element, the 32 bits of the signed value (R341). -/
def execGeof4lat (u : Word) (s : State) : Host.Outcome State Fault Refusal :=
  .next (storeEntry 0x44 (slotOfElems [u]) 4 s)

/-- GEOF4LON, tag 0x45 (R241): one element, the 32 bits of the signed value (R341). -/
def execGeof4lon (u : Word) (s : State) : Host.Outcome State Fault Refusal :=
  .next (storeEntry 0x45 (slotOfElems [u]) 4 s)

/-- GEOF4RAD, tag 0x46 (R242): one element, the 32 bits (R341). -/
def execGeof4rad (u : Word) (s : State) : Host.Outcome State Fault Refusal :=
  .next (storeEntry 0x46 (slotOfElems [u]) 4 s)

/-- WAKEINT, tag 0x47 (R243): one element, zero-extended (R341). -/
def execWakeint (u : Half) (s : State) : Host.Outcome State Fault Refusal :=
  .next (storeEntry 0x47 (slotOfElems [u.setWidth 32]) 2 s)

/-- ALARMINT, tag 0x48 (R244): one element, zero-extended (R341). -/
def execAlarmint (u : Half) (s : State) : Host.Outcome State Fault Refusal :=
  .next (storeEntry 0x48 (slotOfElems [u.setWidth 32]) 2 s)

/-- TXINT, tag 0x49 (R245): one element, zero-extended (R341). -/
def execTxint (u : Half) (s : State) : Host.Outcome State Fault Refusal :=
  .next (storeEntry 0x49 (slotOfElems [u.setWidth 32]) 2 s)

/-- LOWBATT, tag 0x4a (R246): one element, zero-extended (R341). -/
def execLowbatt (u : Half) (s : State) : Host.Outcome State Fault Refusal :=
  .next (storeEntry 0x4a (slotOfElems [u.setWidth 32]) 2 s)

/-- DYNMODEL, tag 0x4b (R247): one element, zero-extended (R341). -/
def execDynmodel (u : Byte) (s : State) : Host.Outcome State Fault Refusal :=
  .next (storeEntry 0x4b (slotOfElems [u.setWidth 32]) 1 s)

end Sys2Proof.Machine
end

