-- ==== Sys2Proof/Machine/Operands.lean ====
section
/-! DEFINITION. The encoder's operand forms (R24 of 10_state.md) and `payload_of` (R266 to R279 of 43_encoder.md): which
operand kind a field type takes, exact scaling and rounding (R270 to R272), the range checks (R273 to R275) and packing
(R276 to R279). `none` is the spec's `invalid`. -/

namespace Sys2Proof.Machine

/-- The forms an operand value takes (R24). -/
inductive OperandKind where
  | kNone
  | kInt
  | kDec
  | kF32
  | kElems
  | reserved
  deriving DecidableEq, Repr

/-- OP_KIND read as a form (R24). -/
def operandKind (k : BitVec 3) : OperandKind :=
  match k.toNat with
  | 0 => .kNone
  | 1 => .kInt
  | 2 => .kDec
  | 3 => .kF32
  | 4 => .kElems
  | _ => .reserved

/-- `round_half_up(num / den)` of R272 for a positive denominator: the floor of `num / den + 1/2`. -/
def roundHalfUp (num : Int) (den : Nat) : Int :=
  (2 * num + den) / (2 * den)

/-- `round_half_up(m * 10^x)`: exact whatever the sign of the exponent (R270, R271). -/
def roundScaled (m : Int) (x : Int) : Int :=
  if 0 ≤ x then m * (10 : Int) ^ x.toNat else roundHalfUp m (10 ^ (-x).toNat)

/-- `m * 10^x` when it is an integer (R273). -/
def exactInteger (m : Int) (x : Int) : Option Int :=
  if 0 ≤ x then some (m * (10 : Int) ^ x.toNat)
  else if m % (10 : Int) ^ (-x).toNat = 0 then some (m / (10 : Int) ^ (-x).toNat)
  else none

/-- The raw integer for the value `m * 10^x`: divided by the factor `10^k` and rounded when the field has a scale, else taken
as it is, and only when it is an integer (R270, R271, R273). -/
def rawOf (scale : Option Int) (m x : Int) : Option Int :=
  match scale with
  | some k => some (roundScaled m (x - k))
  | none => exactInteger m x

/-- The payload of an integer scalar for the value `m * 10^x` (R270): type range (R274), field range (R275), packing (R276). -/
def intPayload (w : Width) (signed : Bool) (scale : Option Int) (range : FieldRange) (m x : Int) : Option (List Byte) :=
  match rawOf scale m x with
  | none => none
  | some raw =>
    if raw < tmin w signed ∨ tmax w signed < raw then none
    else if rangeAccepts range raw then some (leBytesInt (widthBytes w) raw)
    else none

/-- The payload of an array of `c` elements of `ew` bytes (R278): the count must fit and every element its width; elements
from `c` on are ignored. -/
def arrayPayload (ew c : Nat) (n : Nat) (elems : List Word) : Option (List Byte) :=
  if n = c ∧ (elems.take c).all (fun e => decide (e.toNat < 2 ^ (8 * ew))) then
    some ((elems.take c).flatMap fun e => leBytes ew e.toNat)
  else none

/-- The payload of a DateTimeRecord (R279): six elements, a 16-bit year and five bytes; no calendar check. -/
def dateTimePayload (n : Nat) (elems : List Word) : Option (List Byte) :=
  if n = 6 ∧ (elems.getD 0 0).toNat < 65536 ∧ ((elems.drop 1).take 5).all (fun e => decide (e.toNat < 256)) then
    some (leBytes 2 (elems.getD 0 0).toNat ++ ((elems.drop 1).take 5).map fun e => BitVec.ofNat 8 e.toNat)
  else none

/-- `payload_of(d)` of R266 on the operand registers. -/
def payloadOf (d : Record) (s : State) : Option (List Byte) :=
  match d.type with
  | .marker =>
    match operandKind s.opKind with
    | .kNone => some []
    | _ => none
  | .scalar _ _ true =>
    match operandKind s.opKind with
    | .kF32 => some (leBytes 4 s.opMantLo.toNat)
    | _ => none
  | .scalar w signed false =>
    match operandKind s.opKind with
    | .kInt => intPayload w signed d.scale d.range (opMant s).toInt 0
    | .kDec => intPayload w signed d.scale d.range (opMant s).toInt s.opExp.toInt
    | _ => none
  | .fixedArray ew c =>
    match operandKind s.opKind with
    | .kElems => arrayPayload (widthBytes ew) c s.opN.toNat s.ope.toList
    | _ => none
  | .dateTime =>
    match operandKind s.opKind with
    | .kElems => dateTimePayload s.opN.toNat s.ope.toList
    | _ => none

end Sys2Proof.Machine
end

