-- ==== Sys2Proof/Machine/Encoder.lean ====
section
/-! DEFINITION. The encoder's commands (43_encoder.md): ENC_BEGIN, ENC_FIELD, ENC_END, over any parameters, and their meanings
with the default ones. -/

namespace Sys2Proof.Machine

/-- ENC_BEGIN (R261): a new message, whatever was there before. -/
def encBegin (C : Params) (s : State) : State :=
  { emit C Config.stx
      { s with wc := 0, ea := 0, eb := 0, efcnt := 0, ewcnt := 0, advLen := false } with
    estate := .eOpen
    cres := .ok }

/-- Lines 5 to 11 of R263: a registered identifier that is no framing identifier. -/
def encRegistered (C : Params) (d : Record) (s : State) : State :=
  match payloadOf d s with
  | none => encSkip .invalidFieldValue s
  | some p =>
    if C.obufSize < s.wc.toNat + 1 + p.length + 3 then encSkip .bufferOverflow s
    else encCount (emitAll C (s.opId :: p) s)

/-- ENC_FIELD (R263), its tests in the order of R280. -/
def encField (C : Params) (s : State) : State :=
  if s.estate = .eOpen then
    match C.reg s.opId with
    | none => encSkip .unknownField s
    | some d =>
      if s.opId = Config.stx ∨ s.opId = Config.etx then encSkip .invalidFieldValue s
      else encRegistered C d s
  else usageError .sequenceError s

/-- The trailer of ENC_END (R288): ETX through emit, then the two checksum bytes, which the checksum does not cover. -/
def encTrailer (C : Params) (s : State) : State :=
  let t := emit C Config.etx s
  appendRaw C t.eb (appendRaw C t.ea t)

/-- ENC_END (R288, R290). -/
def encEnd (C : Params) (s : State) : State :=
  if s.estate = .eOpen then
    let t := encTrailer C s
    { t with advLen := lengthAdvisory t.wc.toNat, estate := .eDone, cres := .ok }
  else usageError .sequenceError s

/-- ENC_BEGIN, command 0x01 (R261). -/
def execEncBegin (s : State) : Host.Outcome State Fault Refusal :=
  .next (encBegin defaultParams s)

/-- ENC_FIELD, command 0x02 (R263). -/
def execEncField (s : State) : Host.Outcome State Fault Refusal :=
  .next (encField defaultParams s)

/-- ENC_END, command 0x03 (R288). -/
def execEncEnd (s : State) : Host.Outcome State Fault Refusal :=
  .next (encEnd defaultParams s)

end Sys2Proof.Machine
end

