-- ==== Sys2Proof/Machine/Framing.lean ====
section
/-! DEFINITION. The entries of 40_registry.md as instructions: the framing markers (R150, R151), the gateway header marker (R152) and the
user-function triggers (R153 to R160). Executing an entry is one turn of the
decoder's loop (R330 step 3): the slot of its tag is overwritten, the entry is counted, the cursor moves past it. -/

namespace Sys2Proof.Machine

/-- STX, tag 0x02 (R150): present, no element (R340). -/
def execStx (s : State) : Host.Outcome State Fault Refusal :=
  .next (storeEntry 0x02 (slotOfElems []) 0 s)

/-- ETX, tag 0x03 (R151): the end of the entry list, steps 4 and 5 of R330. The slot of ETX is never written. -/
def execEtx (s : State) : Host.Outcome State Fault Refusal :=
  .next (decEnd s)

/-- RBHEAD, tag 0x52 (R152): four elements, each zero-extended (R343). -/
def execRbhead (e0 e1 e2 e3 : Byte) (s : State) : Host.Outcome State Fault Refusal :=
  .next (storeEntry 0x52 (slotOfElems [e0.setWidth 32, e1.setWidth 32, e2.setWidth 32, e3.setWidth 32]) 4 s)

/-- USERFUNC1, tag 0x58 (R153): present, no element (R340). -/
def execUserfunc1 (s : State) : Host.Outcome State Fault Refusal :=
  .next (storeEntry 0x58 (slotOfElems []) 0 s)

/-- USERFUNC2, tag 0x59 (R154): present, no element (R340). -/
def execUserfunc2 (s : State) : Host.Outcome State Fault Refusal :=
  .next (storeEntry 0x59 (slotOfElems []) 0 s)

/-- USERFUNC3, tag 0x5a (R155): present, no element (R340). -/
def execUserfunc3 (s : State) : Host.Outcome State Fault Refusal :=
  .next (storeEntry 0x5a (slotOfElems []) 0 s)

/-- USERFUNC4, tag 0x5b (R156): present, no element (R340). -/
def execUserfunc4 (s : State) : Host.Outcome State Fault Refusal :=
  .next (storeEntry 0x5b (slotOfElems []) 0 s)

/-- USERFUNC5, tag 0x5c (R157): one element, zero-extended (R341). -/
def execUserfunc5 (u : Half) (s : State) : Host.Outcome State Fault Refusal :=
  .next (storeEntry 0x5c (slotOfElems [u.setWidth 32]) 2 s)

/-- USERFUNC6, tag 0x5d (R158): one element, zero-extended (R341). -/
def execUserfunc6 (u : Half) (s : State) : Host.Outcome State Fault Refusal :=
  .next (storeEntry 0x5d (slotOfElems [u.setWidth 32]) 2 s)

/-- USERFUNC7, tag 0x5e (R159): one element, the 32 bits (R341). -/
def execUserfunc7 (u : Word) (s : State) : Host.Outcome State Fault Refusal :=
  .next (storeEntry 0x5e (slotOfElems [u]) 4 s)

/-- USERFUNC8, tag 0x5f (R160): one element, the 32 bits (R341). -/
def execUserfunc8 (u : Word) (s : State) : Host.Outcome State Fault Refusal :=
  .next (storeEntry 0x5f (slotOfElems [u]) 4 s)

end Sys2Proof.Machine
end

