-- ==== Sys2Proof/Machine/System.lean ====
section
/-! DEFINITION. The system commands and registry queries (46_system.md; 40_registry.md R141, R142): NOP, RESET, REG_TYPEOF,
REG_SCALEOF, and the illegal command codes. -/

namespace Sys2Proof.Machine

/-- REG_TYPEOF over any parameters (R141). -/
def regTypeof (C : Params) (s : State) : State :=
  match C.reg s.opId with
  | none => { s with qType := 0, cres := .unknownField }
  | some d => { s with qType := packType d.type, cres := .ok }

/-- REG_SCALEOF over any parameters (R142). -/
def regScaleof (C : Params) (s : State) : State :=
  match C.reg s.opId with
  | none => { s with qScale := 0, cres := .unknownField }
  | some d => { s with qScale := packScale d.scale, cres := .ok }

/-- A CMD write whose low 8 bits name no command (R121, R384, R419). -/
def illegalCommand (s : State) : State :=
  usageError .illegalCommand s

/-- NOP, command 0x00 (R380). -/
def execNop (s : State) : Host.Outcome State Fault Refusal :=
  .next { s with cres := .ok }

/-- RESET, command 0xff (R382, R451). -/
def execReset (s : State) : Host.Outcome State Fault Refusal :=
  .next (commandReset s)

/-- REG_TYPEOF, command 0x20 (R141). -/
def execRegTypeof (s : State) : Host.Outcome State Fault Refusal :=
  .next (regTypeof defaultParams s)

/-- REG_SCALEOF, command 0x21 (R142). -/
def execRegScaleof (s : State) : Host.Outcome State Fault Refusal :=
  .next (regScaleof defaultParams s)

end Sys2Proof.Machine
end

