-- ==== Sys2Proof/Machine/Telemetry.lean ====
section
/-! DEFINITION. The outbound telemetry entries as instructions (41_fields_telemetry.md, R180 to R210). Executing an entry is one turn of the
decoder's loop (R330 step 3): the slot of its tag is overwritten, the entry is counted, the cursor moves past it. -/

namespace Sys2Proof.Machine

/-- SWVER, tag 0x04 (R180): one element, zero-extended (R341). -/
def execSwver (u : Byte) (s : State) : Host.Outcome State Fault Refusal :=
  .next (storeEntry 0x04 (slotOfElems [u.setWidth 32]) 1 s)

/-- SOURCE, tag 0x08 (R181): one element, the 32 bits (R341). -/
def execSource (u : Word) (s : State) : Host.Outcome State Fault Refusal :=
  .next (storeEntry 0x08 (slotOfElems [u]) 4 s)

/-- BATTV, tag 0x09 (R182): one element, zero-extended (R341). -/
def execBattv (u : Half) (s : State) : Host.Outcome State Fault Refusal :=
  .next (storeEntry 0x09 (slotOfElems [u.setWidth 32]) 2 s)

/-- PRESS, tag 0x0a (R183): one element, zero-extended (R341). -/
def execPress (u : Half) (s : State) : Host.Outcome State Fault Refusal :=
  .next (storeEntry 0x0a (slotOfElems [u.setWidth 32]) 2 s)

/-- TEMP, tag 0x0b (R184): one element, sign-extended (R341). -/
def execTemp (u : Half) (s : State) : Host.Outcome State Fault Refusal :=
  .next (storeEntry 0x0b (slotOfElems [u.signExtend 32]) 2 s)

/-- HUMID, tag 0x0c (R185): one element, zero-extended (R341). -/
def execHumid (u : Half) (s : State) : Host.Outcome State Fault Refusal :=
  .next (storeEntry 0x0c (slotOfElems [u.setWidth 32]) 2 s)

/-- YEAR, tag 0x0d (R186): one element, zero-extended (R341). -/
def execYear (u : Half) (s : State) : Host.Outcome State Fault Refusal :=
  .next (storeEntry 0x0d (slotOfElems [u.setWidth 32]) 2 s)

/-- MONTH, tag 0x0e (R187): one element, zero-extended (R341). -/
def execMonth (u : Byte) (s : State) : Host.Outcome State Fault Refusal :=
  .next (storeEntry 0x0e (slotOfElems [u.setWidth 32]) 1 s)

/-- DAY, tag 0x0f (R188): one element, zero-extended (R341). -/
def execDay (u : Byte) (s : State) : Host.Outcome State Fault Refusal :=
  .next (storeEntry 0x0f (slotOfElems [u.setWidth 32]) 1 s)

/-- HOUR, tag 0x10 (R189): one element, zero-extended (R341). -/
def execHour (u : Byte) (s : State) : Host.Outcome State Fault Refusal :=
  .next (storeEntry 0x10 (slotOfElems [u.setWidth 32]) 1 s)

/-- MIN, tag 0x11 (R190): one element, zero-extended (R341). -/
def execMin (u : Byte) (s : State) : Host.Outcome State Fault Refusal :=
  .next (storeEntry 0x11 (slotOfElems [u.setWidth 32]) 1 s)

/-- SEC, tag 0x12 (R191): one element, zero-extended (R341). -/
def execSec (u : Byte) (s : State) : Host.Outcome State Fault Refusal :=
  .next (storeEntry 0x12 (slotOfElems [u.setWidth 32]) 1 s)

/-- MILLIS, tag 0x13 (R192): one element, zero-extended (R341). -/
def execMillis (u : Half) (s : State) : Host.Outcome State Fault Refusal :=
  .next (storeEntry 0x13 (slotOfElems [u.setWidth 32]) 2 s)

/-- DATETIME, tag 0x14 (R193): six elements, year, month, day, hour, minute, second, with no calendar check (R344). -/
def execDatetime (year : Half) (month day hour minute second : Byte) (s : State) :
    Host.Outcome State Fault Refusal :=
  .next (storeEntry 0x14
    (slotOfElems [year.setWidth 32, month.setWidth 32, day.setWidth 32, hour.setWidth 32, minute.setWidth 32,
      second.setWidth 32]) 7 s)

/-- LAT, tag 0x15 (R194): one element, the 32 bits of the signed value (R341). -/
def execLat (u : Word) (s : State) : Host.Outcome State Fault Refusal :=
  .next (storeEntry 0x15 (slotOfElems [u]) 4 s)

/-- LON, tag 0x16 (R195): one element, the 32 bits of the signed value (R341). -/
def execLon (u : Word) (s : State) : Host.Outcome State Fault Refusal :=
  .next (storeEntry 0x16 (slotOfElems [u]) 4 s)

/-- ALT, tag 0x17 (R196): one element, the 32 bits of the signed value (R341). -/
def execAlt (u : Word) (s : State) : Host.Outcome State Fault Refusal :=
  .next (storeEntry 0x17 (slotOfElems [u]) 4 s)

/-- SPEED, tag 0x18 (R197): one element, the 32 bits of the signed value (R341). -/
def execSpeed (u : Word) (s : State) : Host.Outcome State Fault Refusal :=
  .next (storeEntry 0x18 (slotOfElems [u]) 4 s)

/-- HEAD, tag 0x19 (R198): one element, the 32 bits of the signed value (R341). -/
def execHead (u : Word) (s : State) : Host.Outcome State Fault Refusal :=
  .next (storeEntry 0x19 (slotOfElems [u]) 4 s)

/-- SATS, tag 0x1a (R199): one element, zero-extended (R341). -/
def execSats (u : Byte) (s : State) : Host.Outcome State Fault Refusal :=
  .next (storeEntry 0x1a (slotOfElems [u.setWidth 32]) 1 s)

/-- PDOP, tag 0x1b (R200): one element, zero-extended (R341). -/
def execPdop (u : Half) (s : State) : Host.Outcome State Fault Refusal :=
  .next (storeEntry 0x1b (slotOfElems [u.setWidth 32]) 2 s)

/-- FIX, tag 0x1c (R201): one element, zero-extended (R341). -/
def execFix (u : Byte) (s : State) : Host.Outcome State Fault Refusal :=
  .next (storeEntry 0x1c (slotOfElems [u.setWidth 32]) 1 s)

/-- GEOFSTAT, tag 0x1d (R202): three elements, each zero-extended (R343). -/
def execGeofstat (e0 e1 e2 : Byte) (s : State) : Host.Outcome State Fault Refusal :=
  .next (storeEntry 0x1d (slotOfElems [e0.setWidth 32, e1.setWidth 32, e2.setWidth 32]) 3 s)

/-- USERVAL1, tag 0x20 (R203): one element, zero-extended (R341). -/
def execUserval1 (u : Byte) (s : State) : Host.Outcome State Fault Refusal :=
  .next (storeEntry 0x20 (slotOfElems [u.setWidth 32]) 1 s)

/-- USERVAL2, tag 0x21 (R204): one element, zero-extended (R341). -/
def execUserval2 (u : Byte) (s : State) : Host.Outcome State Fault Refusal :=
  .next (storeEntry 0x21 (slotOfElems [u.setWidth 32]) 1 s)

/-- USERVAL3, tag 0x22 (R205): one element, zero-extended (R341). -/
def execUserval3 (u : Half) (s : State) : Host.Outcome State Fault Refusal :=
  .next (storeEntry 0x22 (slotOfElems [u.setWidth 32]) 2 s)

/-- USERVAL4, tag 0x23 (R206): one element, zero-extended (R341). -/
def execUserval4 (u : Half) (s : State) : Host.Outcome State Fault Refusal :=
  .next (storeEntry 0x23 (slotOfElems [u.setWidth 32]) 2 s)

/-- USERVAL5, tag 0x24 (R207): one element, the 32 bits (R341). -/
def execUserval5 (u : Word) (s : State) : Host.Outcome State Fault Refusal :=
  .next (storeEntry 0x24 (slotOfElems [u]) 4 s)

/-- USERVAL6, tag 0x25 (R208): one element, the 32 bits (R341). -/
def execUserval6 (u : Word) (s : State) : Host.Outcome State Fault Refusal :=
  .next (storeEntry 0x25 (slotOfElems [u]) 4 s)

/-- USERVAL7, tag 0x26 (R209): one element, the binary32 pattern, not interpreted (R342). -/
def execUserval7 (u : Word) (s : State) : Host.Outcome State Fault Refusal :=
  .next (storeEntry 0x26 (slotOfElems [u]) 4 s)

/-- USERVAL8, tag 0x27 (R210): one element, the binary32 pattern, not interpreted (R342). -/
def execUserval8 (u : Word) (s : State) : Host.Outcome State Fault Refusal :=
  .next (storeEntry 0x27 (slotOfElems [u]) 4 s)

end Sys2Proof.Machine
end

