-- ==== Sys2Proof/Machine/Dispatch.lean ====
section
/-! DEFINITION. The meaning of each instruction: one arm per row of opcode_table.json. -/

namespace Sys2Proof.Machine

def exec (i : Instr) (s : State) : Host.Outcome State Fault Refusal :=
  match i with
  | .stx => Sys2Proof.Machine.execStx s
  | .etx => Sys2Proof.Machine.execEtx s
  | .swver u => Sys2Proof.Machine.execSwver u s
  | .source u => Sys2Proof.Machine.execSource u s
  | .battv u => Sys2Proof.Machine.execBattv u s
  | .press u => Sys2Proof.Machine.execPress u s
  | .temp u => Sys2Proof.Machine.execTemp u s
  | .humid u => Sys2Proof.Machine.execHumid u s
  | .year u => Sys2Proof.Machine.execYear u s
  | .month u => Sys2Proof.Machine.execMonth u s
  | .day u => Sys2Proof.Machine.execDay u s
  | .hour u => Sys2Proof.Machine.execHour u s
  | .min u => Sys2Proof.Machine.execMin u s
  | .sec u => Sys2Proof.Machine.execSec u s
  | .millis u => Sys2Proof.Machine.execMillis u s
  | .datetime year month day hour minute second => Sys2Proof.Machine.execDatetime year month day hour minute second s
  | .lat u => Sys2Proof.Machine.execLat u s
  | .lon u => Sys2Proof.Machine.execLon u s
  | .alt u => Sys2Proof.Machine.execAlt u s
  | .speed u => Sys2Proof.Machine.execSpeed u s
  | .head u => Sys2Proof.Machine.execHead u s
  | .sats u => Sys2Proof.Machine.execSats u s
  | .pdop u => Sys2Proof.Machine.execPdop u s
  | .fix u => Sys2Proof.Machine.execFix u s
  | .geofstat e0 e1 e2 => Sys2Proof.Machine.execGeofstat e0 e1 e2 s
  | .userval1 u => Sys2Proof.Machine.execUserval1 u s
  | .userval2 u => Sys2Proof.Machine.execUserval2 u s
  | .userval3 u => Sys2Proof.Machine.execUserval3 u s
  | .userval4 u => Sys2Proof.Machine.execUserval4 u s
  | .userval5 u => Sys2Proof.Machine.execUserval5 u s
  | .userval6 u => Sys2Proof.Machine.execUserval6 u s
  | .userval7 u => Sys2Proof.Machine.execUserval7 u s
  | .userval8 u => Sys2Proof.Machine.execUserval8 u s
  | .mofields e0 e1 e2 => Sys2Proof.Machine.execMofields e0 e1 e2 s
  | .flags1 u => Sys2Proof.Machine.execFlags1 u s
  | .flags2 u => Sys2Proof.Machine.execFlags2 u s
  | .dest u => Sys2Proof.Machine.execDest u s
  | .hipress u => Sys2Proof.Machine.execHipress u s
  | .lopress u => Sys2Proof.Machine.execLopress u s
  | .hitemp u => Sys2Proof.Machine.execHitemp u s
  | .lotemp u => Sys2Proof.Machine.execLotemp u s
  | .hihumid u => Sys2Proof.Machine.execHihumid u s
  | .lohumid u => Sys2Proof.Machine.execLohumid u s
  | .geofnum u => Sys2Proof.Machine.execGeofnum u s
  | .geof1lat u => Sys2Proof.Machine.execGeof1lat u s
  | .geof1lon u => Sys2Proof.Machine.execGeof1lon u s
  | .geof1rad u => Sys2Proof.Machine.execGeof1rad u s
  | .geof2lat u => Sys2Proof.Machine.execGeof2lat u s
  | .geof2lon u => Sys2Proof.Machine.execGeof2lon u s
  | .geof2rad u => Sys2Proof.Machine.execGeof2rad u s
  | .geof3lat u => Sys2Proof.Machine.execGeof3lat u s
  | .geof3lon u => Sys2Proof.Machine.execGeof3lon u s
  | .geof3rad u => Sys2Proof.Machine.execGeof3rad u s
  | .geof4lat u => Sys2Proof.Machine.execGeof4lat u s
  | .geof4lon u => Sys2Proof.Machine.execGeof4lon u s
  | .geof4rad u => Sys2Proof.Machine.execGeof4rad u s
  | .wakeint u => Sys2Proof.Machine.execWakeint u s
  | .alarmint u => Sys2Proof.Machine.execAlarmint u s
  | .txint u => Sys2Proof.Machine.execTxint u s
  | .lowbatt u => Sys2Proof.Machine.execLowbatt u s
  | .dynmodel u => Sys2Proof.Machine.execDynmodel u s
  | .rbhead e0 e1 e2 e3 => Sys2Proof.Machine.execRbhead e0 e1 e2 e3 s
  | .userfunc1 => Sys2Proof.Machine.execUserfunc1 s
  | .userfunc2 => Sys2Proof.Machine.execUserfunc2 s
  | .userfunc3 => Sys2Proof.Machine.execUserfunc3 s
  | .userfunc4 => Sys2Proof.Machine.execUserfunc4 s
  | .userfunc5 u => Sys2Proof.Machine.execUserfunc5 u s
  | .userfunc6 u => Sys2Proof.Machine.execUserfunc6 u s
  | .userfunc7 u => Sys2Proof.Machine.execUserfunc7 u s
  | .userfunc8 u => Sys2Proof.Machine.execUserfunc8 u s
  | .nop => Sys2Proof.Machine.execNop s
  | .encBegin => Sys2Proof.Machine.execEncBegin s
  | .encField => Sys2Proof.Machine.execEncField s
  | .encEnd => Sys2Proof.Machine.execEncEnd s
  | .decRun => Sys2Proof.Machine.execDecRun s
  | .regTypeof => Sys2Proof.Machine.execRegTypeof s
  | .regScaleof => Sys2Proof.Machine.execRegScaleof s
  | .reset => Sys2Proof.Machine.execReset s

end Sys2Proof.Machine
end

