-- ==== Sys2Proof/WellFormed.lean ====
section
/-! DEFINITION. What may be assumed of the parameters and of an instruction: the well-formedness of a registry (R145 and
R146 of 40_registry.md, D39), the bounds of the buffer sizes (R7, R43), and when an instruction belongs to a registry (its
tag is registered with the type that fixes its payload format, R96). Every check is a Bool, so that a configuration that
fails it is refused before any rule is read for it. -/

namespace Sys2Proof

open Sys2Proof.Machine

/-- R146 (e) for a scalar of width `w`: the range lies within the wire type's; NIBBLES only on an unsigned byte. -/
def FieldRange.fits (w : Width) (signed : Bool) : FieldRange → Bool
  | .full => true
  | .interval lo hi => decide (tmin w signed ≤ lo) && decide (lo ≤ hi) && decide (hi ≤ tmax w signed)
  | .nibbles hmax lmax => decide (w = .one) && !signed && decide (hmax ≤ 15) && decide (lmax ≤ 15)

/-- No scale and range FULL, as R146 asks of everything but an integer scalar. -/
def Record.plain (d : Record) : Bool :=
  d.scale.isNone && decide (d.range = .full)

/-- R146 (b) to (e) and (g) for one record; the scale exponent's bounds are R140's. -/
def Record.wf (d : Record) : Bool :=
  (match d.type with
    | .marker => d.plain
    | .dateTime => d.plain
    | .scalar w _ true => decide (w = .four) && d.plain
    | .scalar w signed false =>
      d.range.fits w signed && (match d.scale with
        | none => true
        | some k => decide (-128 ≤ k) && decide (k ≤ 127))
    | .fixedArray _ c => decide (1 ≤ c) && decide (c ≤ Config.maxElems) && d.plain)
  && decide (paylen d.type ≤ Config.maxPayload)

/-- The 256 identifiers, in order. -/
def allTags : List Byte :=
  (List.range 256).map (BitVec.ofNat 8)

/-- The registered identifiers, in order. -/
def Params.registered (C : Params) : List Byte :=
  allTags.filter fun t => (C.reg t).isSome

/-- The names of the records, in the order of their identifiers. -/
def Params.names (C : Params) : List String :=
  allTags.filterMap fun t => (C.reg t).map Record.name

/-- R7 and R43: the bounds of the two buffer sizes. -/
def Params.sizesOk (C : Params) : Bool :=
  decide (9 ≤ C.ibufSize) && decide (C.ibufSize ≤ 4096) && decide (4 ≤ C.obufSize) && decide (C.obufSize ≤ 4096)

/-- R145 S1: tag 0x02 is STX and 0x03 is ETX, both Markers. -/
def Params.framingOk (C : Params) : Bool :=
  (C.reg Config.stx).any (fun d => decide (d.type = .marker) && d.name == "STX")
    && (C.reg Config.etx).any (fun d => decide (d.type = .marker) && d.name == "ETX")

/-- R145 S2: tag 0x00 is not registered. -/
def Params.zeroOk (C : Params) : Bool :=
  (C.reg 0x00).isNone

/-- R145 S3: tag 0x31 is FLAGS1, a 1-byte unsigned, unscaled integer Scalar, whose range lets the value 0x20 be packed. -/
def Params.flags1Ok (C : Params) : Bool :=
  (C.reg 0x31).any fun d =>
    decide (d.type = .scalar .one false false) && d.scale.isNone && rangeAccepts d.range 0x20 && d.name == "FLAGS1"

/-- R145 S4: every registered tag lies in one of the ranges of R97. -/
def Params.rangesOk (C : Params) : Bool :=
  C.registered.all fun t => (tagClass t).isSome

/-- R146 (b) to (e), (g): every record is well formed. -/
def Params.recordsOk (C : Params) : Bool :=
  allTags.all fun t => (C.reg t).all Record.wf

/-- R146 (f): names are distinct. -/
def Params.namesOk (C : Params) : Bool :=
  decide C.names.Nodup

/-- The configuration check of R146 with the size bounds of R7 and R43. -/
def Params.wf (C : Params) : Bool :=
  C.sizesOk && C.framingOk && C.zeroOk && C.flags1Ok && C.rangesOk && C.recordsOk && C.namesOk

/-- Some registered tag of the class carries this name and passes the test. -/
def Params.hasField (C : Params) (name : String) (test : Byte → Record → Bool) : Bool :=
  allTags.any fun t => (C.reg t).any fun d => d.name == name && test t d

/-- The greatest raw value that a range accepts on a scalar of this type (R148). -/
def FieldRange.greatest (w : Width) (signed : Bool) : FieldRange → Int
  | .full => tmax w signed
  | .interval _ hi => hi
  | .nibbles hmax lmax => 16 * hmax + lmax

/-- The greatest valid value of an integer Scalar, in its human unit, is `v`: the greatest raw value times the factor
`10^k`, exactly (R145 S11; log 19). -/
def Record.greatestIs (d : Record) (v : Int) : Bool :=
  match d.type with
  | .scalar w signed false =>
    let raw := d.range.greatest w signed
    match d.scale with
    | none => decide (raw = v)
    | some k => decide (raw * (10 : Int) ^ k.toNat = v * (10 : Int) ^ (-k).toNat)
  | _ => false

/-- The facts S5 to S13 of R145, which the source settles of every registry. Three of them are read by inference (DEDUCED, log
19): that S10 leaves GEOFNUM no scale, on an unsigned byte; what S11's greatest value is under a scale; that S13 asks for a
record under 0x52. -/
def Params.factsOk (C : Params) : Bool :=
  (["USERFUNC1", "USERFUNC2", "USERFUNC3", "USERFUNC4"].all fun nm =>
    C.hasField nm fun t d => decide (d.type = .marker) && decide (tagClass t = some .userfunc))
  && (["BATTV", "TEMP"].all fun nm => C.hasField nm fun _ d => decide (d.scale = some (-2)))
  && (["LAT", "LON"].all fun nm => C.hasField nm fun _ d => decide (d.scale = some (-7)))
  && C.hasField "GEOFSTAT" (fun _ d => decide (paylen d.type = 3))
  && C.hasField "MOFIELDS" (fun _ d => decide (d.type = .fixedArray .four 3))
  && C.hasField "HITEMP" (fun _ d => decide (d.type = .scalar .two true false) && decide (d.scale = some (-2))
      && decide (d.range = .interval (-4000) 8500))
  && C.hasField "GEOFNUM" (fun _ d => decide (d.type = .scalar .one false false) && d.scale.isNone
      && decide (d.range = .nibbles 4 4))
  && C.hasField "HIPRESS" (fun _ d => d.greatestIs 1084 && decide (2 ≤ paylen d.type))
  && (allTags.any fun t => (C.reg t).any fun d => decide (d.type = .dateTime))
  && (C.reg 0x52).isSome && decide (tagClass 0x52 = some .gateway)

/-- The tag and the field type that fix an entry's format (R92 to R95, R99); `none` for a command. -/
def Instr.form : Instr → Option (Byte × FieldType)
  | .stx => some (0x02, .marker)
  | .etx => some (0x03, .marker)
  | .swver _ => some (0x04, .scalar .one false false)
  | .source _ => some (0x08, .scalar .four false false)
  | .battv _ => some (0x09, .scalar .two false false)
  | .press _ => some (0x0a, .scalar .two false false)
  | .temp _ => some (0x0b, .scalar .two true false)
  | .humid _ => some (0x0c, .scalar .two false false)
  | .year _ => some (0x0d, .scalar .two false false)
  | .month _ => some (0x0e, .scalar .one false false)
  | .day _ => some (0x0f, .scalar .one false false)
  | .hour _ => some (0x10, .scalar .one false false)
  | .min _ => some (0x11, .scalar .one false false)
  | .sec _ => some (0x12, .scalar .one false false)
  | .millis _ => some (0x13, .scalar .two false false)
  | .datetime _ _ _ _ _ _ => some (0x14, .dateTime)
  | .lat _ => some (0x15, .scalar .four true false)
  | .lon _ => some (0x16, .scalar .four true false)
  | .alt _ => some (0x17, .scalar .four true false)
  | .speed _ => some (0x18, .scalar .four true false)
  | .head _ => some (0x19, .scalar .four true false)
  | .sats _ => some (0x1a, .scalar .one false false)
  | .pdop _ => some (0x1b, .scalar .two false false)
  | .fix _ => some (0x1c, .scalar .one false false)
  | .geofstat _ _ _ => some (0x1d, .fixedArray .one 3)
  | .userval1 _ => some (0x20, .scalar .one false false)
  | .userval2 _ => some (0x21, .scalar .one false false)
  | .userval3 _ => some (0x22, .scalar .two false false)
  | .userval4 _ => some (0x23, .scalar .two false false)
  | .userval5 _ => some (0x24, .scalar .four false false)
  | .userval6 _ => some (0x25, .scalar .four false false)
  | .userval7 _ => some (0x26, .scalar .four false true)
  | .userval8 _ => some (0x27, .scalar .four false true)
  | .mofields _ _ _ => some (0x30, .fixedArray .four 3)
  | .flags1 _ => some (0x31, .scalar .one false false)
  | .flags2 _ => some (0x32, .scalar .one false false)
  | .dest _ => some (0x33, .scalar .four false false)
  | .hipress _ => some (0x34, .scalar .two false false)
  | .lopress _ => some (0x35, .scalar .two false false)
  | .hitemp _ => some (0x36, .scalar .two true false)
  | .lotemp _ => some (0x37, .scalar .two true false)
  | .hihumid _ => some (0x38, .scalar .two false false)
  | .lohumid _ => some (0x39, .scalar .two false false)
  | .geofnum _ => some (0x3a, .scalar .one false false)
  | .geof1lat _ => some (0x3b, .scalar .four true false)
  | .geof1lon _ => some (0x3c, .scalar .four true false)
  | .geof1rad _ => some (0x3d, .scalar .four false false)
  | .geof2lat _ => some (0x3e, .scalar .four true false)
  | .geof2lon _ => some (0x3f, .scalar .four true false)
  | .geof2rad _ => some (0x40, .scalar .four false false)
  | .geof3lat _ => some (0x41, .scalar .four true false)
  | .geof3lon _ => some (0x42, .scalar .four true false)
  | .geof3rad _ => some (0x43, .scalar .four false false)
  | .geof4lat _ => some (0x44, .scalar .four true false)
  | .geof4lon _ => some (0x45, .scalar .four true false)
  | .geof4rad _ => some (0x46, .scalar .four false false)
  | .wakeint _ => some (0x47, .scalar .two false false)
  | .alarmint _ => some (0x48, .scalar .two false false)
  | .txint _ => some (0x49, .scalar .two false false)
  | .lowbatt _ => some (0x4a, .scalar .two false false)
  | .dynmodel _ => some (0x4b, .scalar .one false false)
  | .rbhead _ _ _ _ => some (0x52, .fixedArray .one 4)
  | .userfunc1 => some (0x58, .marker)
  | .userfunc2 => some (0x59, .marker)
  | .userfunc3 => some (0x5a, .marker)
  | .userfunc4 => some (0x5b, .marker)
  | .userfunc5 _ => some (0x5c, .scalar .two false false)
  | .userfunc6 _ => some (0x5d, .scalar .two false false)
  | .userfunc7 _ => some (0x5e, .scalar .four false false)
  | .userfunc8 _ => some (0x5f, .scalar .four false false)
  | .nop | .encBegin | .encField | .encEnd | .decRun | .regTypeof | .regScaleof | .reset => none

/-- An entry belongs to a registry when its tag is registered there with its format's type; a command always does. -/
def Instr.wf (C : Params) (i : Instr) : Bool :=
  match i.form with
  | none => true
  | some (t, ty) => (C.reg t).any fun d => decide (d.type = ty)

end Sys2Proof
end

