-- ==== Sys2Proof/Machine/Fetch.lean ====
section
/-! DEFINITION. How the block gets its next instruction: the register map (R42 of 10_state.md), host reads and writes (R386
of 46_system.md), the command in a write to CMD (R120), the entry under the decoder's cursor (R76, R333 to R335), and where
the host's check of one table word puts that word. -/

namespace Sys2Proof.Machine

/-- What a byte offset of the register map names (R42). -/
inductive HostReg where
  | cmd | cres | status
  | opId | opKind | opN | opExp | opMantLo | opMantHi
  | ope (i : Nat)
  | estate | wc | ea | eb | ewcnt | efcnt | advLen
  | ilen | dstate | derr | dpos | dtag | da | db | dhdr | dcnt
  | qType | qScale
  | ibuf (i : Nat)
  | obuf (i : Nat)
  | resHeader (id : Nat)
  | resElem (id i : Nat)
  | unmapped
  deriving DecidableEq, Repr

/-- The windows of the map, from 0x1000 on: the two buffers and the result store (R42, R43). -/
def windowOf (C : Params) (off : Nat) : HostReg :=
  if 0x1000 ≤ off ∧ off < 0x1000 + C.ibufSize then .ibuf (off - 0x1000)
  else if 0x2000 ≤ off ∧ off < 0x2000 + C.obufSize then .obuf (off - 0x2000)
  else if 0x4000 ≤ off ∧ off < 0x4000 + 0x40 * 256 then
    let id := (off - 0x4000) / 0x40
    let k := (off - 0x4000) % 0x40
    if k = 0 then .resHeader id
    else if k % 4 = 0 ∧ k ≤ 4 + 4 * 7 then .resElem id (k / 4 - 1)
    else .unmapped
  else .unmapped

/-- The register map (R42). An offset that it does not list, also one inside a register's word, is unmapped (log 10). -/
def regOf (C : Params) (off : Nat) : HostReg :=
  match off with
  | 0x000 => .cmd
  | 0x004 => .cres
  | 0x008 => .status
  | 0x010 => .opId
  | 0x014 => .opKind
  | 0x018 => .opN
  | 0x01C => .opExp
  | 0x020 => .opMantLo
  | 0x024 => .opMantHi
  | 0x040 => .ope 0
  | 0x044 => .ope 1
  | 0x048 => .ope 2
  | 0x04C => .ope 3
  | 0x050 => .ope 4
  | 0x054 => .ope 5
  | 0x058 => .ope 6
  | 0x05C => .ope 7
  | 0x080 => .estate
  | 0x084 => .wc
  | 0x088 => .ea
  | 0x08C => .eb
  | 0x090 => .ewcnt
  | 0x094 => .efcnt
  | 0x098 => .advLen
  | 0x0C0 => .ilen
  | 0x0C4 => .dstate
  | 0x0C8 => .derr
  | 0x0CC => .dpos
  | 0x0D0 => .dtag
  | 0x0D4 => .da
  | 0x0D8 => .db
  | 0x0DC => .dhdr
  | 0x0E0 => .dcnt
  | 0x100 => .qType
  | 0x104 => .qScale
  | off => windowOf C off

/-- What a read of a register gives (R386 host_read, R42, R28; CMD and unmapped offsets read 0). R386 says only 'the register's
value': that a register narrower than 32 bits reads with zeros above it, OP_EXP too though R25 reads it as signed, is the
model's DESIGN CHOICE (log 18). -/
def readReg (r : HostReg) (s : State) : Word :=
  match r with
  | .cmd => 0
  | .cres => (resultNumber s.cres).setWidth 32
  | .status => statusWord s
  | .opId => s.opId.setWidth 32
  | .opKind => s.opKind.setWidth 32
  | .opN => s.opN.setWidth 32
  | .opExp => s.opExp.setWidth 32
  | .opMantLo => s.opMantLo
  | .opMantHi => s.opMantHi
  | .ope i => s.ope.toList.getD i 0
  | .estate => (estateBits s.estate).setWidth 32
  | .wc => s.wc.setWidth 32
  | .ea => s.ea.setWidth 32
  | .eb => s.eb.setWidth 32
  | .ewcnt => s.ewcnt.setWidth 32
  | .efcnt => s.efcnt.setWidth 32
  | .advLen => (BitVec.ofBool s.advLen).setWidth 32
  | .ilen => s.ilen.setWidth 32
  | .dstate => (dstateBits s.dstate).setWidth 32
  | .derr => (resultNumber s.derr).setWidth 32
  | .dpos => s.dpos.setWidth 32
  | .dtag => s.dtag.setWidth 32
  | .da => s.da.setWidth 32
  | .db => s.db.setWidth 32
  | .dhdr => (BitVec.ofBool s.dhdr).setWidth 32
  | .dcnt => s.dcnt.setWidth 32
  | .qType => s.qType.setWidth 32
  | .qScale => s.qScale.setWidth 32
  | .ibuf i => (ibufByte s i).setWidth 32
  | .obuf i => (obufByte s i).setWidth 32
  | .resHeader id => (BitVec.ofBool (resValid s id) ++ (0 : BitVec 4) ++ (resSlot s id).n).setWidth 32
  | .resElem id i => (resSlot s id).e.toList.getD i 0
  | .unmapped => 0

/-- `host_read` of R386. -/
def hostRead (C : Params) (off : Nat) (s : State) : Word :=
  readReg (regOf C off) s

/-- `min(v[15:0], IBUF_SIZE)`, what a write of `v` to ILEN stores (R32). -/
def ilenOf (C : Params) (v : Word) : Half :=
  BitVec.ofNat 16 (min (v.setWidth 16).toNat C.ibufSize)

/-- The writes of R386 that are no commands: a writable register takes the low bits of the value (R25), ILEN saturates (R32),
everything else ignores the write. -/
def writeReg (C : Params) (r : HostReg) (v : Word) (s : State) : State :=
  match r with
  | .opId => { s with opId := v.setWidth 8 }
  | .opKind => { s with opKind := v.setWidth 3 }
  | .opN => { s with opN := v.setWidth 4 }
  | .opExp => { s with opExp := v.setWidth 8 }
  | .opMantLo => { s with opMantLo := v }
  | .opMantHi => { s with opMantHi := v }
  | .ope i => { s with ope := s.ope.setIfInBounds i v }
  | .ilen => { s with ilen := ilenOf C v }
  | .ibuf i => { s with ibuf := bufWrite C.ibufSize s.ibuf i (v.setWidth 8) }
  | .cmd | .cres | .status | .estate | .wc | .ea | .eb | .ewcnt | .efcnt | .advLen => s
  | .dstate | .derr | .dpos | .dtag | .da | .db | .dhdr | .dcnt | .qType | .qScale => s
  | .obuf _ | .resHeader _ | .resElem _ _ | .unmapped => s

/-- What the block does next: run an instruction, or a step that runs none and ends in a state. -/
inductive Fetched where
  | run (i : Instr) (s : State)
  | done (s : State)
  deriving DecidableEq, Repr

/-- A host write (R386): to CMD it is a command, of which only bits 7:0 are decoded (R384). -/
def fetchWrite (C : Params) (off : Nat) (v : Word) (s : State) : Fetched :=
  match regOf C off with
  | .cmd =>
    match decodeCommand (v.setWidth 8) with
    | some i => .run i s
    | none => .done (illegalCommand s)
  | r => .done (writeReg C r v s)

/-- The host's next access, taken off `pending` (R21); with none to come the block is idle and nothing moves (log 1). -/
def fetchHost (C : Params) (s : State) : Fetched :=
  match s.pending with
  | [] => .done s
  | .read _ :: rest => .done { s with pending := rest }
  | .powerOn :: rest => .done (powerOn { s with pending := rest })
  | .write off v :: rest => fetchWrite C off v { s with pending := rest }

/-- The bytes from the decoder's cursor to the end of the loaded input. -/
def entryBytes (s : State) : List Byte :=
  ibufRead s s.rc (s.ilen.toNat - s.rc)

/-- The entry under the decoder's cursor (R333 to R335), read through the registry: an instruction of the opcode table when
the registry gives its tag the table's format. Anything else is one turn of the loop with no instruction to name: a decode
error, or an entry that only this registry has (R7, log 4). -/
def fetchEntry (C : Params) (s : State) : Fetched :=
  match decodeEntry (entryBytes s) with
  | .entry i _ => if i.wf C then .run i s else .done (decStep C s)
  | .unknown _ | .truncated _ | .empty => .done (decStep C s)

/-- Inside a DEC_RUN the next thing is the entry under the cursor; outside, the host's next access (R20, log 3). -/
def fetch (C : Params) (s : State) : Fetched :=
  if s.walking then fetchEntry C s else fetchHost C s

/-- Bytes written one after the other from offset `a` on. -/
def writeBytes (m : Memory) : Nat → List Byte → Memory
  | _, [] => m
  | a, v :: vs => writeBytes (insert m a v) (a + 1) vs

/-- The state whose next step runs the instruction of a table word (log 2). A command: the host's next access writes it to
CMD. An entry: a DEC_RUN has just found STX at offset 0 and the entry stands under the cursor at offset 1, with the bytes
above the word zero, up to the longest instruction. -/
def placeWord (s : State) (nbits w : Nat) : State :=
  match tableCommand nbits w with
  | some _ => { s with walking := false, dOff := 0, rc := 0, pending := .write 0 (BitVec.ofNat 32 w) :: s.pending }
  | none =>
    let bytes := tableBytes nbits w
    { s with
      walking := true
      dOff := 0
      rc := 1
      ilen := BitVec.ofNat 16 (1 + bytes.length)
      ibuf := writeBytes s.ibuf 0 (Config.stx :: bytes) }

end Sys2Proof.Machine
end

