-- ==== Sys2Proof/Machine/Step.lean ====
section
/-! DEFINITION. One step (R21 of 10_state.md), and where the host's check puts a table word. -/

namespace Sys2Proof.Machine

/-- One step of the block: what `fetch` gives, executed. -/
def step (s : State) : Host.Outcome State Fault Refusal :=
  match fetch defaultParams s with
  | .run i t => exec i t
  | .done t => .next t

/-- The state whose next step fetches and runs the instruction of a table word (log 2). -/
def State.withFetchWord (s : State) (nbits w : Nat) : State :=
  placeWord s nbits w

end Sys2Proof.Machine
end

