-- ==== Sys2Proof/Machine/Block.lean ====
section
/-! DEFINITION. The block over any parameters (R7 of 00_scope.md, R147 of 40_registry.md: the registry and the buffer sizes are
arguments): executing an instruction, one step, and the machine behind the host's interface. `exec`, `step` and the host's
core are these at the default parameters (log 4). -/

namespace Sys2Proof.Machine

/-- An instruction executed by a block with these parameters. The commands read the registry and the sizes; an entry's format
is fixed by its constructor, and the fetch names it only where the registry gives its tag that format. -/
def execWith (C : Params) (i : Instr) (s : State) : Host.Outcome State Fault Refusal :=
  match i with
  | .encBegin => .next (encBegin C s)
  | .encField => .next (encField C s)
  | .encEnd => .next (encEnd C s)
  | .decRun => .next (decRun C s)
  | .regTypeof => .next (regTypeof C s)
  | .regScaleof => .next (regScaleof C s)
  | .nop | .reset
  | .stx | .etx | .swver _ | .source _ | .battv _ | .press _ | .temp _ | .humid _ | .year _ | .month _
  | .day _ | .hour _ | .min _ | .sec _ | .millis _ | .datetime _ _ _ _ _ _ | .lat _ | .lon _ | .alt _
  | .speed _ | .head _ | .sats _ | .pdop _ | .fix _ | .geofstat _ _ _ | .userval1 _ | .userval2 _
  | .userval3 _ | .userval4 _ | .userval5 _ | .userval6 _ | .userval7 _ | .userval8 _ | .mofields _ _ _
  | .flags1 _ | .flags2 _ | .dest _ | .hipress _ | .lopress _ | .hitemp _ | .lotemp _ | .hihumid _
  | .lohumid _ | .geofnum _ | .geof1lat _ | .geof1lon _ | .geof1rad _ | .geof2lat _ | .geof2lon _
  | .geof2rad _ | .geof3lat _ | .geof3lon _ | .geof3rad _ | .geof4lat _ | .geof4lon _ | .geof4rad _
  | .wakeint _ | .alarmint _ | .txint _ | .lowbatt _ | .dynmodel _ | .rbhead _ _ _ _ | .userfunc1 | .userfunc2
  | .userfunc3 | .userfunc4 | .userfunc5 _ | .userfunc6 _ | .userfunc7 _ | .userfunc8 _ => exec i s

/-- One step of a block with these parameters (R21 of 10_state.md). -/
def stepWith (C : Params) (s : State) : Host.Outcome State Fault Refusal :=
  match fetch C s with
  | .run i t => execWith C i t
  | .done t => .next t

/-- The machine with these parameters, behind the host's interface. -/
def coreWith (C : Params) : Host.Core :=
  { State := State, Fault := Fault, Refusal := Refusal, step := stepWith C, reset := State.reset }

end Sys2Proof.Machine
end

