-- ==== Sys2Proof/Machine/Messages.lean ====
section
/-! DEFINITION. What the spec derives from the commands and calls by name: the raw and the human-unit value of a decoded field
(R37 of 10_state.md), and the source's encoder and decoder as functions of their inputs (R294 of 43_encoder.md, R350 of
45_decoder.md), each by running the commands. -/

namespace Sys2Proof.Machine

/-- `RawValue(id)` of R37 for a record's type: the element read as signed when the field is signed. -/
def rawValue (t : FieldType) (slot : Slot) : Int :=
  if typeSigned t then (slot.e[0]).toInt else (slot.e[0]).toNat

/-- `HumanValue(id)` of R37: the raw value times `10^k`, exactly, or the raw value when the field has no scale. -/
def humanValue (d : Record) (slot : Slot) : ℚ :=
  match d.scale with
  | some k => (rawValue d.type slot : ℚ) * (10 : ℚ) ^ k
  | none => rawValue d.type slot

/-- One operand tuple of R294. -/
structure Operand where
  id : Byte
  kind : BitVec 3
  mant : BitVec 64
  exp : Byte
  n : BitVec 4
  elems : Vector Word 8
  deriving DecidableEq, Repr

/-- The operand registers loaded with a tuple (R294). -/
def loadOperand (o : Operand) (s : State) : State :=
  { s with
    opId := o.id
    opKind := o.kind
    opMantLo := o.mant.setWidth 32
    opMantHi := (o.mant >>> 32).setWidth 32
    opExp := o.exp
    opN := o.n
    ope := o.elems }

/-- ENC_FIELD for each tuple in order, with the CRES of each (R294). -/
def encodeFields (C : Params) : List Operand → State → List ResultCode × State
  | [], s => ([], s)
  | o :: os, s =>
    let t := encField C (loadOperand o s)
    let r := encodeFields C os t
    (t.cres :: r.1, r.2)

/-- The state after ENC_BEGIN, the fields, ENC_END. -/
def encodeRun (C : Params) (os : List Operand) (s : State) : State :=
  encEnd C (encodeFields C os (encBegin C s)).2

/-- `EncodeMsg.bytes` of R294: `OBUF[0..WC-1]` when done. -/
def encodeBytes (C : Params) (os : List Operand) (s : State) : List Byte :=
  let t := encodeRun C os s
  obufRead t 0 t.wc.toNat

/-- The list of CRES values of R294. -/
def encodeCodes (C : Params) (os : List Operand) (s : State) : List ResultCode :=
  (encodeFields C os (encBegin C s)).1

/-- The result of the source's decoder (R350). -/
inductive Decoded where
  /-- the mapping: identifier, and the elements up to the count -/
  | ok (map : List (Nat × List Word))
  | err (code : ResultCode) (pos : Half) (tag : Byte)
  deriving DecidableEq, Repr

/-- `IBUF` filled from offset `a` on by host writes, one byte each (R350, R386). -/
def loadBytes (C : Params) (m : Memory) : Nat → List Byte → Memory
  | _, [] => m
  | a, v :: vs => loadBytes C (bufWrite C.ibufSize m a v) (a + 1) vs

/-- The input of a decode loaded: the bytes and ILEN (R350). -/
def loadInput (C : Params) (buf : List Byte) (s : State) : State :=
  { s with ibuf := loadBytes C s.ibuf 0 buf, ilen := BitVec.ofNat 16 (min buf.length C.ibufSize) }

/-- The state after the input is loaded and DEC_RUN has run. -/
def decodeAfter (C : Params) (buf : List Byte) (s : State) : State :=
  decRun C (loadInput C buf s)

/-- `DecodeMsg(buf)` of R350, run from any state of the block; it needs a buffer that fits IBUF. -/
def decodeMsg (C : Params) (buf : List Byte) (s : State) : Decoded :=
  let t := decodeAfter C buf s
  if t.dstate = .dOk then .ok (t.res.map fun p => (p.1, p.2.e.toList.take p.2.n.toNat))
  else .err t.derr t.dpos t.dtag

end Sys2Proof.Machine
end

