-- ==== Sys2Proof/Safety.lean ====
section
/-! DEFINITION. The terms statements are made in: what two states share (the frames), the invariant of the block's states
(R30, R32, R34 to R36, R346 and the model's own fields), the checksum invariant of the encoder (R318, R288), and the wire
form of a message (R90). -/

namespace Sys2Proof.Machine

/-! ## Frames: what two states share -/

/-- The operand registers are the same (R23). -/
def SameOperands (s t : State) : Prop :=
  t.opId = s.opId ∧ t.opKind = s.opKind ∧ t.opN = s.opN ∧ t.opExp = s.opExp
    ∧ t.opMantLo = s.opMantLo ∧ t.opMantHi = s.opMantHi ∧ t.ope = s.ope

/-- Every byte of OBUF reads the same. -/
def SameOutput (s t : State) : Prop :=
  ∀ a, obufByte t a = obufByte s a

/-- Every byte of IBUF reads the same, and ILEN. -/
def SameInput (s t : State) : Prop :=
  t.ilen = s.ilen ∧ ∀ a, ibufByte t a = ibufByte s a

/-- The encoder's registers are the same (R29). -/
def SameEncRegs (s t : State) : Prop :=
  t.estate = s.estate ∧ t.wc = s.wc ∧ t.ea = s.ea ∧ t.eb = s.eb ∧ t.efcnt = s.efcnt ∧ t.ewcnt = s.ewcnt
    ∧ t.advLen = s.advLen

/-- The decoder's result registers are the same (R31). -/
def SameDecRegs (s t : State) : Prop :=
  t.dstate = s.dstate ∧ t.derr = s.derr ∧ t.dpos = s.dpos ∧ t.dtag = s.dtag ∧ t.da = s.da ∧ t.db = s.db
    ∧ t.dhdr = s.dhdr

/-- The result store reads the same, and DCNT (R31, R34). -/
def SameResults (s t : State) : Prop :=
  t.dcnt = s.dcnt ∧ ∀ id, resValid t id = resValid s id ∧ resSlot t id = resSlot s id

/-- The registry answers are the same (R38). -/
def SameQueries (s t : State) : Prop :=
  t.qType = s.qType ∧ t.qScale = s.qScale

/-- The model's walk fields are the same (log 3). -/
def SameWalk (s t : State) : Prop :=
  t.walking = s.walking ∧ t.dOff = s.dOff ∧ t.rc = s.rc

/-- The host's accesses to come and the power-on count are the same (logs 1 and 5). -/
def SameOutside (s t : State) : Prop :=
  t.pending = s.pending ∧ t.epoch = s.epoch

/-- The whole encoder is the same: its registers and the output buffer. -/
def SameEncoder (s t : State) : Prop :=
  SameEncRegs s t ∧ SameOutput s t

/-- The whole decoder is the same: its input, its result registers, its results, its walk. -/
def SameDecoder (s t : State) : Prop :=
  SameInput s t ∧ SameDecRegs s t ∧ SameResults s t ∧ SameWalk s t

/-- Everything outside the decoder's results and CRES is the same, and no walk is left open: what DEC_RUN must leave alone
(R330). -/
def DecRunFrame (s t : State) : Prop :=
  SameOperands s t ∧ SameEncoder s t ∧ SameInput s t ∧ SameQueries s t ∧ SameOutside s t
    ∧ t.walking = false ∧ t.dOff = 0 ∧ t.rc = 0

/-- No slot is valid and every slot reads zero (R35). -/
def NoResults (t : State) : Prop :=
  ∀ id, resValid t id = false ∧ (resSlot t id).n = 0 ∧ ∀ k : Fin 8, (resSlot t id).e[k] = 0

/-- The common outcome of a decode error (R410): what it records, with nothing of the result store left. -/
def DecodeFailed (code : ResultCode) (pos : Nat) (tag : Byte) (t : State) : Prop :=
  NoResults t ∧ t.dcnt = 0 ∧ t.dstate = .dFail ∧ t.derr = code ∧ t.dpos.toNat = pos ∧ t.dtag = tag ∧ t.cres = code

/-- What executing one entry does (R330 step 3, R336, R345): it answers a next state in which slot `tag` is valid and holds
exactly these elements, the entry is counted, the cursor has moved past it, and everything else is as before. -/
def EntryEffect (i : Instr) (tag : Byte) (es : List Word) (payloadLen : Nat) (s : State) : Prop :=
  ∃ t, exec i s = .next t
    ∧ resValid t tag.toNat = true ∧ (resSlot t tag.toNat).n.toNat = es.length
    ∧ (∀ k : Fin 8, (resSlot t tag.toNat).e[k] = es.getD k.val 0)
    ∧ (∀ id, id ≠ tag.toNat → resValid t id = resValid s id ∧ resSlot t id = resSlot s id)
    ∧ t.dcnt.toNat = min (s.dcnt.toNat + 1) 65535
    ∧ t.rc = s.rc + 1 + payloadLen ∧ t.walking = s.walking ∧ t.dOff = s.dOff
    ∧ t.cres = s.cres ∧ SameDecRegs s t ∧ SameInput s t
    ∧ SameOperands s t ∧ SameEncoder s t ∧ SameQueries s t ∧ SameOutside s t

/-- Everything but CRES is the same. -/
def OnlyCres (s t : State) : Prop :=
  SameOperands s t ∧ SameEncoder s t ∧ SameDecoder s t ∧ SameQueries s t ∧ SameOutside s t

/-! ## The invariant of the block's states -/

/-- R30: where WC stands in each encoder state, and what the other encoder registers hold there (R29, R290). -/
def EncInv (C : Params) (s : State) : Prop :=
  match s.estate with
  | .eIdle => s.wc = 0 ∧ s.ea = 0 ∧ s.eb = 0 ∧ s.efcnt = 0 ∧ s.ewcnt = 0 ∧ s.advLen = false
  | .eOpen => 1 ≤ s.wc.toNat ∧ s.wc.toNat + 3 ≤ C.obufSize ∧ s.advLen = false
  | .eDone => 4 ≤ s.wc.toNat ∧ s.wc.toNat ≤ C.obufSize ∧ s.advLen = decide (340 < s.wc.toNat)

/-- R36: a valid slot has the count of its field's type, and zeros from the count on; ETX has no slot (R151). -/
def SlotFits (C : Params) (id : Nat) (slot : Slot) : Prop :=
  id ≠ 3 ∧ ∃ d, C.reg (BitVec.ofNat 8 id) = some d ∧ slot.n.toNat = typeCount d.type
    ∧ ∀ i : Fin 8, slot.n.toNat ≤ i.val → slot.e[i] = 0

/-- Where the walk stands: strictly after its start and inside the input; at rest outside a DEC_RUN (R33, log 3). -/
def WalkInv (s : State) : Prop :=
  if s.walking then s.dOff < s.rc ∧ s.rc ≤ s.ilen.toNat else s.dOff = 0 ∧ s.rc = 0

/-- R31, R35, R346: what the result registers say between two steps. -/
def ResultInv (s : State) : Prop :=
  s.walking = false →
    match s.dstate with
    | .dIdle => s.res = [] ∧ s.dcnt = 0 ∧ s.derr = .ok
    | .dOk => s.derr = .ok ∧ s.dtag = 0
    | .dFail => s.res = [] ∧ s.dcnt = 0 ∧ s.derr ≠ .ok

/-- The invariant: the two buffers and the result store are in canonical form and inside their spaces, ILEN is inside IBUF
(R32), and the four parts above hold. -/
structure Inv (C : Params) (s : State) : Prop where
  ibufCanonical : Memory.wf C.ibufSize s.ibuf = true
  obufCanonical : Memory.wf C.obufSize s.obuf = true
  resCanonical : ResultStore.wf s.res = true
  ilenInside : s.ilen.toNat ≤ C.ibufSize
  encoder : EncInv C s
  slots : ∀ p ∈ s.res, SlotFits C p.1 p.2
  walk : WalkInv s
  results : ResultInv s

/-- R318, R288, R463: EA and EB are the checksum of the bytes from STX on, and a finished message ends in ETX and them. -/
def ChecksumInv (s : State) : Prop :=
  match s.estate with
  | .eIdle => True
  | .eOpen => obufByte s 0 = Config.stx ∧ fletcher (obufRead s 0 s.wc.toNat) = (s.ea, s.eb)
  | .eDone =>
    obufByte s 0 = Config.stx ∧ fletcher (obufRead s 0 (s.wc.toNat - 2)) = (s.ea, s.eb)
      ∧ obufByte s (s.wc.toNat - 3) = Config.etx ∧ obufByte s (s.wc.toNat - 2) = s.ea
      ∧ obufByte s (s.wc.toNat - 1) = s.eb

/-! ## The wire form of a message (R90) -/

/-- The bytes of the entries of a message: tag, then payload (R90). -/
def entriesBytes (es : List (Byte × List Byte)) : List Byte :=
  es.flatMap fun e => e.1 :: e.2

/-- STX, the entries, ETX: what the checksum covers (R314). -/
def spanBytes (es : List (Byte × List Byte)) : List Byte :=
  Config.stx :: (entriesBytes es ++ [Config.etx])

/-- A whole message: the covered span and its checksum, `a` first (R90, R313). -/
def messageBytes (es : List (Byte × List Byte)) : List Byte :=
  spanBytes es ++ [(fletcher (spanBytes es)).1, (fletcher (spanBytes es)).2]

/-- An entry a decoder can walk over: a registered tag that is not ETX, and a payload of the record's length (R333 to R335). -/
def EntryFits (C : Params) (e : Byte × List Byte) : Prop :=
  e.1 ≠ Config.etx ∧ ∃ d, C.reg e.1 = some d ∧ e.2.length = paylen d.type

/-- A prefix the decoder skips: nothing, or a 5-byte header whose first byte is not STX (R91, R331). -/
def HeaderFits (h : List Byte) : Prop :=
  h = [] ∨ (h.length = 5 ∧ h.head? ≠ some Config.stx)

/-- The result store after these entries, the later of two with one tag winning (R339, R345). -/
def entriesStore (C : Params) (es : List (Byte × List Byte)) : ResultStore :=
  es.foldl (fun m e => match C.reg e.1 with
    | some d => insert m e.1.toNat (slotOf d.type e.2)
    | none => m) []

/-- The entry the encoder accepts for an operand tuple, when it accepts it: a registered identifier that is no framing
identifier, with a valid payload (R263 lines 3 to 7). -/
def acceptedEntry (C : Params) (o : Operand) : Option (Byte × List Byte) :=
  match C.reg o.id with
  | none => none
  | some d =>
    if o.id = Config.stx ∨ o.id = Config.etx then none
    else (payloadOf d (loadOperand o State.reset)).map fun p => (o.id, p)

/-- The CRES that ENC_FIELD answers for a tuple when there is room (R280, R294). -/
def fieldCode (C : Params) (o : Operand) : ResultCode :=
  if (C.reg o.id).isNone then .unknownField
  else if (acceptedEntry C o).isSome then .ok
  else .invalidFieldValue

/-- The bytes that entries take in a message: a tag and a payload each (R90). -/
def entriesLength (es : List (Byte × List Byte)) : Nat :=
  (es.map fun e => 1 + e.2.length).sum

/-- The tuples whose ENC_FIELD answered OK (R293). -/
def okOperands (os : List Operand) (codes : List ResultCode) : List Operand :=
  ((os.zip codes).filter fun p => p.2 == .ok).map Prod.fst

/-- The value an operand tuple stands for when its kind is K_INT or K_DEC (R24, R270). -/
def operandValue (o : Operand) : ℚ :=
  match operandKind o.kind with
  | .kDec => (o.mant.toInt : ℚ) * (10 : ℚ) ^ o.exp.toInt
  | _ => o.mant.toInt

/-- R295 for one field: what the slot of a decoded field says of the operand it was encoded from. -/
def RoundTrips (d : Record) (o : Operand) (slot : Slot) : Prop :=
  match d.type with
  | .marker => slot.n = 0
  | .scalar _ _ true => slot.e[0] = o.mant.setWidth 32
  | .scalar _ _ false =>
    match d.scale with
    | some k =>
      rawValue d.type slot = ⌊operandValue o / (10 : ℚ) ^ k + 1 / 2⌋
        ∧ |humanValue d slot - operandValue o| ≤ (10 : ℚ) ^ k / 2
    | none => (rawValue d.type slot : ℚ) = operandValue o ∧ humanValue d slot = operandValue o
  | .fixedArray _ _ => slot.n = o.n ∧ ∀ k : Fin 8, k.val < slot.n.toNat → slot.e[k] = o.elems[k]
  | .dateTime => slot.n = o.n ∧ ∀ k : Fin 8, k.val < slot.n.toNat → slot.e[k] = o.elems[k]

/-- The entries of the accepted tuples, in order (R294). -/
def acceptedEntries (C : Params) (os : List Operand) : List (Byte × List Byte) :=
  os.filterMap (acceptedEntry C)

end Sys2Proof.Machine
end

