-- ==== Sys2Proof/Certificates/Slice0/Obligations.lean ====
section
/-! DEFINITION. The statements for the provers. `exec` and `step` run with the default parameters; the statements about the
encoder and the decoder as functions hold for every well-formed registry and every legal buffer size (R147). -/

open Sys2Proof Sys2Proof.Machine

/-! ## Encoding -/

/-- R90, R92 to R95, R120: decoding an encoded instruction gives it back, whatever bytes follow. -/
def Obligations.DecodeInvertsEncode : Prop :=
  ∀ (i : Instr) (rest : List Byte), decode i.space (encode i ++ rest) = some (i, rest)

/-- R92 to R95, R120: what decodes to an instruction begins with that instruction's encoding, so no two byte strings of one
space share an instruction and no bit is dropped. -/
def Obligations.DecodedBytesAreTheEncoding : Prop :=
  ∀ (sp : Space) (bytes : List Byte) (i : Instr) (rest : List Byte),
    decode sp bytes = some (i, rest) → i.space = sp ∧ bytes = encode i ++ rest

/-- R96, R112, R116: the tag alone tells an entry's length, through the registry; an unregistered tag has no format; a payload
that is not all there is refused. -/
def Obligations.TagTellsTheEntryLength : Prop :=
  ∀ (tag : Byte) (p : List Byte),
    match regDefault tag with
    | none => decodeEntry (tag :: p) = .unknown tag
    | some d =>
      if p.length < paylen d.type then decodeEntry (tag :: p) = .truncated tag
      else ∃ i, decodeEntry (tag :: p) = .entry i (p.drop (paylen d.type)) ∧ i.form = some (tag, d.type)

/-- R120, R121: eight codes name a command, the others none. -/
def Obligations.EightCommandCodes : Prop :=
  (∀ code : Byte, decodeCommand code = none ↔
      code ∉ ([0x00, 0x01, 0x02, 0x03, 0x10, 0x20, 0x21, 0xff] : List Byte))
    ∧ decodeCommand 0x00 = some .nop ∧ decodeCommand 0x01 = some .encBegin ∧ decodeCommand 0x02 = some .encField
    ∧ decodeCommand 0x03 = some .encEnd ∧ decodeCommand 0x10 = some .decRun ∧ decodeCommand 0x20 = some .regTypeof
    ∧ decodeCommand 0x21 = some .regScaleof ∧ decodeCommand 0xff = some .reset

/-- Entries that the per-tag rules write out: FLAGS1 = 0x20 (R221), HITEMP = 23.45 (R226), HIPRESS = 1000 (R224), GEOF1LAT
= 55.0 (R231), USERVAL7 = 1.5 (R268), MOFIELDS and GEOFSTAT (R343), DATETIME (R344), USERFUNC1 (R340). -/
def Obligations.SpecEntriesDecode : Prop :=
  decodeEntry [0x31, 0x20] = .entry (.flags1 0x20) []
    ∧ decodeEntry [0x36, 0x29, 0x09] = .entry (.hitemp 2345) []
    ∧ decodeEntry [0x34, 0xE8, 0x03] = .entry (.hipress 1000) []
    ∧ decodeEntry [0x3B, 0x80, 0x55, 0xC8, 0x20] = .entry (.geof1lat 550000000) []
    ∧ decodeEntry [0x26, 0x00, 0x00, 0xC0, 0x3F] = .entry (.userval7 0x3FC00000) []
    ∧ decodeEntry [0x30, 0x00, 0x00, 0x00, 0x0F, 0x00, 0x00, 0x00, 0x00, 0x01, 0x00, 0x00, 0x00]
        = .entry (.mofields 0x0F000000 0 1) []
    ∧ decodeEntry [0x1d, 1, 2, 3] = .entry (.geofstat 1 2 3) []
    ∧ decodeEntry [0x14, 0xEA, 0x07, 0x0B, 0x0A, 0x09, 0x1C, 0x3B] = .entry (.datetime 2026 11 10 9 28 59) []
    ∧ decodeEntry [0x58] = .entry .userfunc1 []
    ∧ decodeEntry [0x00] = .unknown 0x00

/-- R145, R146, R147: REG_DEFAULT has 70 records, passes the configuration check and has the facts S5 to S13; every
instruction belongs to it. Of these facts S10, S11 and S13 are checked as the model reads them (DEDUCED, log 19). -/
def Obligations.DefaultRegistryIsWellFormed : Prop :=
  defaultParams.wf = true ∧ defaultParams.factsOk = true ∧ defaultParams.registered.length = 70
    ∧ ∀ i : Instr, i.wf defaultParams = true

/-! ## The step -/

/-- R20, R120, R384, R76, R333: between commands a write to CMD runs the command its low 8 bits name; inside a DEC_RUN the
entry under the cursor is run (log 3). `step` adds only taking the write off the list of accesses to come (log 1). -/
def Obligations.StepRunsTheDecodedInstruction : Prop :=
  (∀ (s : State) (v : Word) (accesses : List HostAccess) (i : Instr),
      s.walking = false → s.pending = .write 0 v :: accesses → decodeCommand (v.setWidth 8) = some i →
        step s = exec i { s with pending := accesses })
    ∧ ∀ (s : State) (i : Instr) (rest : List Byte),
      s.walking = true → decodeEntry (entryBytes s) = .entry i rest → step s = exec i s

/-- R20, R68, R351, R421, R423: every step answers a next state. One that starts between commands ends between commands: that
clause is about the model's own `walking` field (log 3, a DESIGN CHOICE), and a step that starts inside a DEC_RUN may leave the
walk open. -/
def Obligations.StepIsAtomic : Prop :=
  ∀ s : State, ∃ t, step s = .next t ∧ (s.walking = false → t.walking = false)

/-- The invariants hold after a power-on reset. -/
def Obligations.ResetMeetsTheInvariants : Prop :=
  Inv defaultParams State.reset ∧ ChecksumInv State.reset

/-- R30, R32, R34 to R36, R346, R351: every step keeps the invariant: canonical memories, ILEN inside IBUF, WC where its
encoder state has it, slots shaped by their field's type, nothing left of a failed decode. The clauses about the walk and
about memory's form are the model's own (logs 3 and 9). -/
def Obligations.StepKeepsTheInvariant : Prop :=
  ∀ s t : State, Inv defaultParams s → step s = .next t → Inv defaultParams t

/-- R318, R463, R288: at every moment EA and EB are the checksum of the message bytes in OBUF, and a finished message ends
in ETX and its checksum. -/
def Obligations.StepKeepsTheChecksum : Prop :=
  ∀ s t : State, Inv defaultParams s → ChecksumInv s → step s = .next t → ChecksumInv t

/-- R330 step 3: inside a DEC_RUN, running the entry under the cursor (or its decode error) is one turn of the decoder's
loop, whose payload is read through the registry. That the block can stand inside a DEC_RUN and step there is the model's DESIGN
CHOICE (log 3): R20 makes DEC_RUN one step. -/
def Obligations.EntryStepIsATurnOfTheLoop : Prop :=
  ∀ s : State, s.walking = true → step s = .next (decStep defaultParams s)

/-- R330, R351: DEC_RUN is its start followed by at most ILEN single-entry steps. The single-entry steps are the model's DESIGN
CHOICE (log 3): R20 makes DEC_RUN one step, and this statement says that the two agree. -/
def Obligations.DecRunIsTheChainOfItsEntries : Prop :=
  ∀ s : State, ∃ k, k ≤ s.ilen.toNat
    ∧ Host.Core.run Sys2Proof.core k (decStart s) = exec .decRun s

/-- R7, R147, for any registry and any buffer sizes: the step and the meanings of the machine are those of the block at the default
parameters, and a step inside a DEC_RUN is one turn of the loop over that registry. Standing inside a DEC_RUN is the model's
DESIGN CHOICE (log 3). -/
def Obligations.AnyRegistryStepsThroughItsLoop : Prop :=
  (∀ s : State, stepWith defaultParams s = step s)
    ∧ (∀ (i : Instr) (s : State), execWith defaultParams i s = exec i s)
    ∧ ∀ (C : Params) (s : State), s.walking = true → stepWith C s = .next (decStep C s)

/-- R7, R147: a block with any well-formed registry and legal buffer sizes keeps both invariants at every step. The clauses about
the walk and about memory's form are the model's own (logs 3 and 9). -/
def Obligations.EveryWellFormedBlockKeepsTheInvariants : Prop :=
  ∀ (C : Params) (s t : State), C.wf = true → Inv C s → stepWith C s = .next t →
    Inv C t ∧ (ChecksumInv s → ChecksumInv t)

/-! ## Host accesses and reset -/

/-- R25, R386: a write to an operand register stores the low bits of the value and changes nothing else; the two halves of
OP_MANT are independent; OP_EXP reads as a signed value. -/
def Obligations.OperandWritesKeepTheLowBits : Prop :=
  ∀ (s : State) (v : Word) (accesses : List HostAccess), s.walking = false →
    (s.pending = .write 0x010 v :: accesses →
        step s = .next { s with pending := accesses, opId := v.extractLsb' 0 8 })
    ∧ (s.pending = .write 0x014 v :: accesses →
        step s = .next { s with pending := accesses, opKind := v.extractLsb' 0 3 })
    ∧ (s.pending = .write 0x018 v :: accesses →
        step s = .next { s with pending := accesses, opN := v.extractLsb' 0 4 })
    ∧ (s.pending = .write 0x01C v :: accesses →
        step s = .next { s with pending := accesses, opExp := v.extractLsb' 0 8 })
    ∧ (s.pending = .write 0x020 v :: accesses → step s = .next { s with pending := accesses, opMantLo := v })
    ∧ (s.pending = .write 0x024 v :: accesses → step s = .next { s with pending := accesses, opMantHi := v })
    ∧ (∀ k : Fin 8, s.pending = .write (0x040 + 4 * k.val) v :: accesses →
        step s = .next { s with pending := accesses, ope := s.ope.set k v })
    ∧ (opMant s).extractLsb' 0 32 = s.opMantLo ∧ (opMant s).extractLsb' 32 32 = s.opMantHi
    ∧ -128 ≤ s.opExp.toInt ∧ s.opExp.toInt ≤ 127

/-- R32: a write to ILEN saturates at the buffer size; a write to a byte of IBUF changes that byte alone, beyond the buffer
nothing; neither changes a decode's result. -/
def Obligations.InputWritesLeaveTheResults : Prop :=
  ∀ (s : State) (v : Word) (accesses : List HostAccess), s.walking = false →
    (s.pending = .write 0x0C0 v :: accesses →
        ∃ t, step s = .next t ∧ t.ilen.toNat = min (v.extractLsb' 0 16).toNat 512 ∧ t.ibuf = s.ibuf
          ∧ t.cres = s.cres ∧ SameOperands s t ∧ SameEncoder s t ∧ SameDecRegs s t ∧ SameResults s t ∧ SameQueries s t
          ∧ SameWalk s t ∧ t.pending = accesses ∧ t.epoch = s.epoch)
    ∧ (∀ a, s.pending = .write (0x1000 + a) v :: accesses → a < 4096 →
        ∃ t, step s = .next t ∧ t.ilen = s.ilen
          ∧ (∀ k, ibufByte t k = if k = a ∧ a < 512 then v.extractLsb' 0 8 else ibufByte s k)
          ∧ t.cres = s.cres ∧ SameOperands s t ∧ SameEncoder s t ∧ SameDecRegs s t ∧ SameResults s t ∧ SameQueries s t
          ∧ SameWalk s t ∧ t.pending = accesses ∧ t.epoch = s.epoch)

/-- R42, R386: a write to a read-only register, to OBUF, to the result store or to an unmapped offset has no effect. That an offset
inside a register's word (0x021) is an unmapped one is the model's DESIGN CHOICE (log 10). -/
def Obligations.OtherWritesAreIgnored : Prop :=
  ∀ (s : State) (off : Nat) (v : Word) (accesses : List HostAccess),
    s.walking = false → s.pending = .write off v :: accesses →
    off ∉ [0x000, 0x010, 0x014, 0x018, 0x01C, 0x020, 0x024, 0x040, 0x044, 0x048, 0x04C, 0x050, 0x054, 0x058, 0x05C, 0x0C0] →
    ¬ (0x1000 ≤ off ∧ off < 0x1000 + 512) →
    step s = .next { s with pending := accesses }

/-- R42, R386, R28, R35: what a host read of each offset of the map returns; CMD and every offset outside the map read 0. The
places of the count and the valid bit in a slot's header are R42's. That a register narrower than 32 bits, OP_EXP too, reads with
zeros above it is the model's DESIGN CHOICE (log 18), and so is that an offset inside a register's word (0x105) lies outside the
map (log 10). -/
def Obligations.HostReadsReturnTheRegisters : Prop :=
  ∀ s : State,
    (∀ p ∈ ([(0x000, 0), (0x004, (resultNumber s.cres).toNat),
        (0x008, (estateBits s.estate).toNat + 4 * (dstateBits s.dstate).toNat + 16 * s.advLen.toNat + 32 * s.dhdr.toNat),
        (0x010, s.opId.toNat), (0x014, s.opKind.toNat),
        (0x018, s.opN.toNat), (0x01C, s.opExp.toNat), (0x020, s.opMantLo.toNat), (0x024, s.opMantHi.toNat),
        (0x080, (estateBits s.estate).toNat), (0x084, s.wc.toNat), (0x088, s.ea.toNat), (0x08C, s.eb.toNat),
        (0x090, s.ewcnt.toNat), (0x094, s.efcnt.toNat), (0x098, s.advLen.toNat), (0x0C0, s.ilen.toNat),
        (0x0C4, (dstateBits s.dstate).toNat), (0x0C8, (resultNumber s.derr).toNat), (0x0CC, s.dpos.toNat),
        (0x0D0, s.dtag.toNat), (0x0D4, s.da.toNat), (0x0D8, s.db.toNat), (0x0DC, s.dhdr.toNat), (0x0E0, s.dcnt.toNat),
        (0x100, s.qType.toNat), (0x104, s.qScale.toNat)] : List (Nat × Nat)),
      (hostRead defaultParams p.1 s).toNat = p.2)
    ∧ (∀ k : Fin 8, hostRead defaultParams (0x040 + 4 * k.val) s = s.ope[k])
    ∧ (∀ a, a < 512 → (hostRead defaultParams (0x1000 + a) s).toNat = (ibufByte s a).toNat
        ∧ (hostRead defaultParams (0x2000 + a) s).toNat = (obufByte s a).toNat)
    ∧ (∀ id, id < 256 →
      (hostRead defaultParams (0x4000 + 0x40 * id) s).toNat
          = (resSlot s id).n.toNat + (if resValid s id then 0x100 else 0)
        ∧ ∀ k : Fin 8, hostRead defaultParams (0x4000 + 0x40 * id + 4 + 4 * k.val) s = (resSlot s id).e[k])
    ∧ ∀ off,
      off ∉ [0x000, 0x004, 0x008, 0x010, 0x014, 0x018, 0x01C, 0x020, 0x024, 0x040, 0x044, 0x048, 0x04C, 0x050, 0x054, 0x058,
        0x05C, 0x080, 0x084, 0x088, 0x08C, 0x090, 0x094, 0x098, 0x0C0, 0x0C4, 0x0C8, 0x0CC, 0x0D0, 0x0D4, 0x0D8, 0x0DC, 0x0E0,
        0x100, 0x104] →
      ¬ (0x1000 ≤ off ∧ off < 0x1000 + 512) → ¬ (0x2000 ≤ off ∧ off < 0x2000 + 512) →
      (∀ id, id < 256 → off ≠ 0x4000 + 0x40 * id ∧ ∀ k : Fin 8, off ≠ 0x4000 + 0x40 * id + 4 + 4 * k.val) →
      hostRead defaultParams off s = 0

/-- R28: STATUS shows ESTATE, DSTATE, ADV_LEN and DHDR and holds nothing of its own: a write to it does nothing, and it reads 0
after reset. -/
def Obligations.StatusIsAView : Prop :=
  (∀ s : State, hostRead defaultParams 0x008 s
    = BitVec.ofNat 32 ((estateBits s.estate).toNat + 4 * (dstateBits s.dstate).toNat + 16 * s.advLen.toNat
        + 32 * s.dhdr.toNat))
    ∧ hostRead defaultParams 0x008 State.reset = 0
    ∧ ∀ (s : State) (v : Word) (accesses : List HostAccess), s.walking = false →
      s.pending = .write 0x008 v :: accesses → step s = .next { s with pending := accesses }

/-- R21, R68: a host read changes no state but that it has been made; with no access to come the block is idle (the model's
choice, log 1). -/
def Obligations.ReadsAndIdlingChangeNothing : Prop :=
  ∀ s : State, s.walking = false →
    (∀ off accesses, s.pending = .read off :: accesses → step s = .next { s with pending := accesses })
    ∧ (s.pending = [] → step s = .next s)

/-- R450: a power-on reset puts every register at 0, empties the result store and leaves the bytes of the buffers free. That
the host's accesses to come survive it, and that the free bytes are new ones, is the model's choice (logs 5 and 6). -/
def Obligations.PowerOnClearsTheBlock : Prop :=
  ∀ (s : State) (accesses : List HostAccess), s.walking = false → s.pending = .powerOn :: accesses →
    ∃ t, step s = .next t
      ∧ t.opId = 0 ∧ t.opKind = 0 ∧ t.opN = 0 ∧ t.opExp = 0 ∧ opMant t = 0 ∧ (∀ k : Fin 8, t.ope[k] = 0)
      ∧ t.cres = .ok ∧ t.estate = .eIdle ∧ t.wc = 0 ∧ t.ea = 0 ∧ t.eb = 0 ∧ t.efcnt = 0 ∧ t.ewcnt = 0 ∧ t.advLen = false
      ∧ t.ilen = 0 ∧ t.dstate = .dIdle ∧ t.derr = .ok ∧ t.dpos = 0 ∧ t.dtag = 0 ∧ t.da = 0 ∧ t.db = 0 ∧ t.dhdr = false
      ∧ t.dcnt = 0 ∧ NoResults t ∧ t.qType = 0 ∧ t.qScale = 0 ∧ statusWord t = 0
      ∧ (∀ a, ibufByte t a = Config.powerOnByte (s.epoch + 1) .ibuf a
          ∧ obufByte t a = Config.powerOnByte (s.epoch + 1) .obuf a)
      ∧ t.walking = false ∧ t.dOff = 0 ∧ t.rc = 0 ∧ t.pending = accesses ∧ t.epoch = s.epoch + 1

/-! ## System commands and queries -/

/-- R380: NOP writes OK to CRES and changes nothing else. -/
def Obligations.NopWritesOnlyCres : Prop :=
  decodeCommand 0x00 = some .nop ∧ ∀ s : State, ∃ t, exec .nop s = .next t ∧ t.cres = .ok ∧ OnlyCres s t

/-- R382, R451: RESET puts every register and the result store in the power-on state and keeps the buffers' bytes. -/
def Obligations.ResetKeepsTheBuffers : Prop :=
  decodeCommand 0xff = some .reset ∧ ∀ s : State, ∃ t, exec .reset s = .next t
    ∧ t.opId = 0 ∧ t.opKind = 0 ∧ t.opN = 0 ∧ t.opExp = 0 ∧ opMant t = 0 ∧ (∀ k : Fin 8, t.ope[k] = 0)
    ∧ t.estate = .eIdle ∧ t.wc = 0 ∧ t.ea = 0 ∧ t.eb = 0 ∧ t.efcnt = 0 ∧ t.ewcnt = 0 ∧ t.advLen = false
    ∧ t.ilen = 0 ∧ t.dstate = .dIdle ∧ t.derr = .ok ∧ t.dpos = 0 ∧ t.dtag = 0 ∧ t.da = 0 ∧ t.db = 0 ∧ t.dhdr = false
    ∧ t.dcnt = 0 ∧ NoResults t ∧ t.qType = 0 ∧ t.qScale = 0 ∧ t.cres = .ok ∧ statusWord t = 0
    ∧ SameOutput s t ∧ (∀ a, ibufByte t a = ibufByte s a) ∧ SameOutside s t
    ∧ t.walking = false ∧ t.dOff = 0 ∧ t.rc = 0

/-- R384, R121, R419: a CMD write whose low 8 bits name no command answers IllegalCommand and changes nothing else; the
other bits of the written value are not decoded, so a write of 0x101 is ENC_BEGIN. -/
def Obligations.IllegalCodesWriteOnlyCres : Prop :=
  (∀ (s : State) (v : Word) (accesses : List HostAccess),
      s.walking = false → s.pending = .write 0 v :: accesses →
      v.extractLsb' 0 8 ∉ ([0x00, 0x01, 0x02, 0x03, 0x10, 0x20, 0x21, 0xff] : List Byte) →
      ∃ t, step s = .next t ∧ t.cres = .illegalCommand ∧ resultNumber t.cres = 8
        ∧ OnlyCres { s with pending := accesses } t)
    ∧ (∀ (s : State) (v w : Word) (accesses : List HostAccess),
      s.walking = false → v.extractLsb' 0 8 = w.extractLsb' 0 8 →
      step { s with pending := .write 0 v :: accesses } = step { s with pending := .write 0 w :: accesses })
    ∧ ∀ (s : State) (accesses : List HostAccess), s.walking = false → s.pending = .write 0 0x101 :: accesses →
      step s = exec .encBegin { s with pending := accesses }

/-- R141, R125: REG_TYPEOF answers the type of a registered tag in the fields of Q_TYPE, 0 and UnknownField for any other tag,
and writes nothing but Q_TYPE and CRES. -/
def Obligations.RegTypeofAnswersTheType : Prop :=
  ∀ s : State, ∃ t, exec .regTypeof s = .next t
    ∧ (match regDefault s.opId with
      | none => t.qType = 0 ∧ t.cres = .unknownField
      | some d =>
        (t.qType.extractLsb' 0 3).toNat = typeKind d.type ∧ (t.qType.extractLsb' 3 3).toNat = typeWidth d.type
          ∧ t.qType.getLsbD 6 = typeSigned d.type ∧ t.qType.getLsbD 7 = typeFloat d.type
          ∧ (t.qType.extractLsb' 8 4).toNat = typeCount d.type ∧ (t.qType.extractLsb' 12 6).toNat = paylen d.type
          ∧ t.cres = .ok)
    ∧ (s.opId = 0x02 ∨ s.opId = 0x03 → (t.qType.extractLsb' 0 3).toNat = 1)
    ∧ (s.opId = 0x00 → t.cres = .unknownField)
    ∧ (s.opId = 0x31 → t.qType = 0x110A ∧ t.cres = .ok)
    ∧ t.qScale = s.qScale ∧ SameOperands s t ∧ SameEncoder s t ∧ SameDecoder s t ∧ SameOutside s t

/-- R142, R126: REG_SCALEOF answers whether a registered tag has a scale factor and its exponent, 0 and UnknownField for any
other tag, and writes nothing but Q_SCALE and CRES. -/
def Obligations.RegScaleofAnswersTheScale : Prop :=
  ∀ s : State, ∃ t, exec .regScaleof s = .next t
    ∧ (match regDefault s.opId with
      | none => t.qScale = 0 ∧ t.cres = .unknownField
      | some d =>
        t.cres = .ok ∧ match d.scale with
          | none => t.qScale = 0
          | some k => t.qScale.toNat = 0x100 + (k % 256).toNat
              ∧ t.qScale.getLsbD 8 = true ∧ (t.qScale.extractLsb' 0 8).toInt = k)
    ∧ (s.opId = 0x36 → t.qScale = 0x1FE)
    ∧ (s.opId = 0x31 → t.qScale = 0 ∧ t.cres = .ok)
    ∧ (s.opId = 0x00 → t.qScale = 0 ∧ t.cres = .unknownField)
    ∧ t.qType = s.qType ∧ SameOperands s t ∧ SameEncoder s t ∧ SameDecoder s t ∧ SameOutside s t

/-! ## The encoder's commands -/

/-- R261: ENC_BEGIN starts a message with STX in every state and leaves everything else, the other bytes of OBUF too. -/
def Obligations.EncBeginStartsAMessage : Prop :=
  ∀ s : State, ∃ t, exec .encBegin s = .next t
    ∧ obufByte t 0 = 0x02 ∧ t.wc = 1 ∧ t.ea = 2 ∧ t.eb = 2 ∧ t.efcnt = 0 ∧ t.ewcnt = 0 ∧ t.advLen = false
    ∧ t.estate = .eOpen ∧ t.cres = .ok ∧ (∀ a, a ≠ 0 → obufByte t a = obufByte s a)
    ∧ SameOperands s t ∧ SameDecoder s t ∧ SameQueries s t ∧ SameOutside s t

/-- R418, R284: SequenceError is the answer of ENC_FIELD and ENC_END exactly when no message is open; it changes CRES alone,
and no other command ever answers it. -/
def Obligations.SequenceErrorOutsideAnOpenMessage : Prop :=
  (∀ s : State, ∀ i ∈ [Instr.encField, .encEnd], s.estate ≠ .eOpen →
      ∃ t, exec i s = .next t ∧ t.cres = .sequenceError ∧ resultNumber t.cres = 7 ∧ OnlyCres s t)
    ∧ (∀ s t : State, ∀ i ∈ [Instr.encField, .encEnd], s.estate = .eOpen → exec i s = .next t → t.cres ≠ .sequenceError)
    ∧ ∀ s t : State, ∀ i ∈ [Instr.nop, .encBegin, .decRun, .regTypeof, .regScaleof, .reset],
      exec i s = .next t → t.cres ≠ .sequenceError

/-- R264, R265: an unregistered identifier is skipped with UnknownField, a framing identifier with InvalidFieldValue, whatever
the other operand registers hold; a skip counts in EWCNT and changes nothing else. -/
def Obligations.UnregisteredAndFramingTagsAreSkipped : Prop :=
  ∀ s : State, s.estate = .eOpen →
    (regDefault s.opId = none ∨ s.opId = 0x02 ∨ s.opId = 0x03) →
    ∃ t, exec .encField s = .next t
      ∧ t.cres = (if regDefault s.opId = none then .unknownField else .invalidFieldValue)
      ∧ t.ewcnt.toNat = min (s.ewcnt.toNat + 1) 65535
      ∧ t.estate = s.estate ∧ t.wc = s.wc ∧ t.ea = s.ea ∧ t.eb = s.eb ∧ t.efcnt = s.efcnt ∧ t.advLen = s.advLen
      ∧ SameOutput s t ∧ SameOperands s t ∧ SameDecoder s t ∧ SameQueries s t ∧ SameOutside s t

/-- R263, R280, R286, R416, R417: for a registered identifier that is no framing identifier, an operand that is no valid value
is skipped with InvalidFieldValue even when it would not fit either, and a valid one that does not fit with BufferOverflow. -/
def Obligations.InvalidAndOversizedFieldsAreSkipped : Prop :=
  ∀ (s : State) (d : Record), s.estate = .eOpen → regDefault s.opId = some d → s.opId ≠ 0x02 → s.opId ≠ 0x03 →
    (payloadOf d s = none ∨ ∃ p, payloadOf d s = some p ∧ 512 < s.wc.toNat + 1 + p.length + 3) →
    ∃ t, exec .encField s = .next t
      ∧ t.cres = (if payloadOf d s = none then .invalidFieldValue else .bufferOverflow)
      ∧ t.ewcnt.toNat = min (s.ewcnt.toNat + 1) 65535
      ∧ t.estate = s.estate ∧ t.wc = s.wc ∧ t.ea = s.ea ∧ t.eb = s.eb ∧ t.efcnt = s.efcnt ∧ t.advLen = s.advLen
      ∧ SameOutput s t ∧ SameOperands s t ∧ SameDecoder s t ∧ SameQueries s t ∧ SameOutside s t

/-- R263 lines 9 to 11, R262: a valid field that fits is emitted: the tag and the payload go to `OBUF[WC ..]` through the
running checksum, the field is counted, and everything else is as before. -/
def Obligations.EncFieldEmitsTheEntry : Prop :=
  ∀ (s : State) (d : Record) (p : List Byte),
    s.estate = .eOpen → regDefault s.opId = some d → s.opId ≠ 0x02 → s.opId ≠ 0x03 → payloadOf d s = some p →
    s.wc.toNat + 1 + p.length + 3 ≤ 512 →
    ∃ t, exec .encField s = .next t
      ∧ t.wc.toNat = s.wc.toNat + 1 + paylen d.type
      ∧ obufRead t s.wc.toNat (1 + paylen d.type) = s.opId :: p
      ∧ (∀ a, ¬ (s.wc.toNat ≤ a ∧ a < s.wc.toNat + (1 + paylen d.type)) → obufByte t a = obufByte s a)
      ∧ (t.ea, t.eb) = (s.opId :: p).foldl fletcherStep (s.ea, s.eb)
      ∧ t.efcnt.toNat = min (s.efcnt.toNat + 1) 65535 ∧ t.cres = .ok
      ∧ t.estate = s.estate ∧ t.ewcnt = s.ewcnt ∧ t.advLen = s.advLen
      ∧ SameOperands s t ∧ SameDecoder s t ∧ SameQueries s t ∧ SameOutside s t

/-- R288, R290, R284: ENC_END appends ETX, which the checksum covers, and the two checksum bytes; ADV_LEN says whether the
message is longer than 340 bytes. With nothing emitted the message is `02 03 05 07`. -/
def Obligations.EncEndFinishesTheMessage : Prop :=
  (∀ s : State, s.estate = .eOpen → s.wc.toNat + 3 ≤ 512 →
    ∃ t, exec .encEnd s = .next t
      ∧ t.wc.toNat = s.wc.toNat + 3 ∧ t.ea = s.ea + 0x03 ∧ t.eb = s.eb + (s.ea + 0x03)
      ∧ obufRead t s.wc.toNat 3 = [0x03, t.ea, t.eb]
      ∧ (∀ a, ¬ (s.wc.toNat ≤ a ∧ a < s.wc.toNat + 3) → obufByte t a = obufByte s a)
      ∧ t.advLen = decide (340 < t.wc.toNat) ∧ t.estate = .eDone ∧ t.cres = .ok
      ∧ t.efcnt = s.efcnt ∧ t.ewcnt = s.ewcnt
      ∧ SameOperands s t ∧ SameDecoder s t ∧ SameQueries s t ∧ SameOutside s t)
    ∧ (∀ s : State, s.estate ≠ .eOpen →
      ∃ t, exec .encEnd s = .next t ∧ t.cres = .sequenceError ∧ OnlyCres s t)
    ∧ ∀ s : State, ∃ u t, exec .encBegin s = .next u ∧ exec .encEnd u = .next t
      ∧ obufRead t 0 t.wc.toNat = [0x02, 0x03, 0x05, 0x07]

/-- R417's bound: with the default parameters BufferOverflow cannot occur before 39 fields have been emitted. -/
def Obligations.OverflowNeedsThirtyNineFields : Prop :=
  ∀ (os : List Operand) (s : State) (n : Nat),
    (encodeCodes defaultParams os s)[n]? = some .bufferOverflow →
    39 ≤ ((encodeCodes defaultParams os s).take n).count .ok

/-! ## Operand values -/

/-- R272: `floor(q + 1/2)`, whatever the sign; the spec's five examples. -/
def Obligations.RoundHalfUpIsFloorOfPlusHalf : Prop :=
  (∀ (num : Int) (den : Nat), 0 < den → roundHalfUp num den = ⌊(num : ℚ) / den + 1 / 2⌋)
    ∧ (∀ m x : Int, roundScaled m x = ⌊(m : ℚ) * (10 : ℚ) ^ x + 1 / 2⌋)
    ∧ roundScaled 25 (-1) = 3 ∧ roundScaled 24999 (-4) = 2 ∧ roundScaled (-25) (-1) = -2 ∧ roundScaled (-25001) (-4) = -3
    ∧ roundScaled (-5) (-1) = 0

/-- R270 to R276: the payload of an integer scalar exists exactly when the operand is an integer or an exact decimal, its raw
value is rounded (scaled field) or exact (unscaled field), and the raw value lies in the type's and in the field's range; it
is then that raw value, little endian, in two's complement. -/
def Obligations.IntegerScalarPayload : Prop :=
  ∀ (s : State) (d : Record) (w : Width) (signed : Bool) (p : List Byte), d.type = .scalar w signed false →
    (payloadOf d s = some p ↔
      ∃ (q : ℚ) (raw : Int),
        ((operandKind s.opKind = .kInt ∧ q = (opMant s).toInt)
          ∨ (operandKind s.opKind = .kDec ∧ q = (opMant s).toInt * (10 : ℚ) ^ s.opExp.toInt))
        ∧ (match d.scale with
          | some k => raw = ⌊q / (10 : ℚ) ^ k + 1 / 2⌋
          | none => (raw : ℚ) = q)
        ∧ (if signed then -(2 : Int) ^ (8 * widthBytes w - 1) ≤ raw ∧ raw ≤ (2 : Int) ^ (8 * widthBytes w - 1) - 1
          else 0 ≤ raw ∧ raw ≤ (2 : Int) ^ (8 * widthBytes w) - 1)
        ∧ (match d.range with
          | .full => True
          | .interval lo hi => lo ≤ raw ∧ raw ≤ hi
          | .nibbles hmax lmax => 0 ≤ raw ∧ raw ≤ 255 ∧ raw / 16 ≤ hmax ∧ raw % 16 ≤ lmax)
        ∧ p = leBytes (widthBytes w) (raw % (2 : Int) ^ (8 * widthBytes w)).toNat)

/-- R267, R268, R278, R279, R266: the payloads of the other types; the reserved kinds are invalid for every type. -/
def Obligations.MarkerFloatArrayAndRecordPayloads : Prop :=
  ∀ (s : State) (d : Record) (p : List Byte),
    (d.type = .marker → (payloadOf d s = some p ↔ operandKind s.opKind = .kNone ∧ p = []))
    ∧ (∀ w sg, d.type = .scalar w sg true →
        (payloadOf d s = some p ↔ operandKind s.opKind = .kF32 ∧ p = leBytes 4 s.opMantLo.toNat))
    ∧ (∀ ew c, d.type = .fixedArray ew c → c ≤ 8 →
        (payloadOf d s = some p ↔
          operandKind s.opKind = .kElems ∧ s.opN.toNat = c
            ∧ (∀ k : Fin 8, k.val < c → s.ope[k].toNat < 2 ^ (8 * widthBytes ew))
            ∧ p = ((List.finRange 8).filter fun k => k.val < c).flatMap fun k => leBytes (widthBytes ew) s.ope[k].toNat))
    ∧ (d.type = .dateTime →
        (payloadOf d s = some p ↔
          operandKind s.opKind = .kElems ∧ s.opN = 6 ∧ s.ope[0].toNat < 65536 ∧ s.ope[1].toNat < 256
            ∧ s.ope[2].toNat < 256 ∧ s.ope[3].toNat < 256 ∧ s.ope[4].toNat < 256 ∧ s.ope[5].toNat < 256
            ∧ p = leBytes 2 s.ope[0].toNat
                ++ [s.ope[1].setWidth 8, s.ope[2].setWidth 8, s.ope[3].setWidth 8, s.ope[4].setWidth 8, s.ope[5].setWidth 8]))
    ∧ (5 ≤ s.opKind.toNat → payloadOf d s = none)

/-- R263 line 7, R96: a payload has the length of its record, whatever the registry. -/
def Obligations.PayloadHasTheRecordLength : Prop :=
  ∀ (s : State) (d : Record) (p : List Byte), d.wf = true → payloadOf d s = some p → p.length = paylen d.type

/-! ## The encoder as a function -/

/-- R294: with room for every accepted field, EncodeMsg is STX, the accepted entries in order, ETX and their checksum; each
CRES is decided by its tuple; ADV_LEN says whether the message is longer than 340 bytes. -/
def Obligations.EncodeMessageIsTheFramedEntries : Prop :=
  ∀ (C : Params) (os : List Operand) (s : State), C.wf = true →
    4 + entriesLength (acceptedEntries C os) ≤ C.obufSize →
    encodeBytes C os s = messageBytes (acceptedEntries C os)
      ∧ encodeCodes C os s = os.map (fieldCode C)
      ∧ (encodeRun C os s).advLen = decide (340 < 4 + entriesLength (acceptedEntries C os))
      ∧ (encodeBytes C os s).length = 4 + entriesLength (acceptedEntries C os)
      ∧ ∀ e ∈ acceptedEntries C os, EntryFits C e

/-- R40 (b), R452: what an encode leaves in OBUF below WC, in WC, EA, EB, EFCNT, EWCNT, ADV_LEN and in the list of CRES depends
on the operands alone, not on the state before. -/
def Obligations.EncodeForgetsThePast : Prop :=
  ∀ (C : Params) (os : List Operand) (s s' : State), C.wf = true →
    encodeBytes C os s = encodeBytes C os s' ∧ encodeCodes C os s = encodeCodes C os s'
      ∧ SameEncRegs (encodeRun C os s) (encodeRun C os s')

/-- R293: the message is the one built from the fields that were accepted, however full the buffer was. -/
def Obligations.SkippedFieldsLeaveNoTrace : Prop :=
  ∀ (C : Params) (os : List Operand) (s s' : State), C.wf = true →
    encodeBytes C (okOperands os (encodeCodes C os s)) s' = encodeBytes C os s

/-! ## The checksum -/

/-- R315: the closed forms of the two accumulators, and the two examples. -/
def Obligations.ChecksumClosedForms : Prop :=
  (∀ vs : List Byte,
      (fletcher vs).1.toNat = (vs.map BitVec.toNat).sum % 256
        ∧ (fletcher vs).2.toNat = (vs.zipIdx.map fun p => (vs.length - p.2) * p.1.toNat).sum % 256)
    ∧ fletcher [0x02, 0x03] = (5, 7) ∧ fletcher [0x02, 0x31, 0x20, 0x03] = (0x56, 0xDE)

/-- R318, R262: emitting bytes one by one from ENC_BEGIN on leaves in EA and EB the checksum of STX and all of them, as long as
they fit. -/
def Obligations.RunningChecksumEqualsBatch : Prop :=
  ∀ (C : Params) (vs : List Byte) (s : State), C.wf = true → 1 + vs.length ≤ C.obufSize →
    let t := emitAll C vs (encBegin C s)
    t.wc.toNat = 1 + vs.length ∧ obufRead t 0 t.wc.toNat = Config.stx :: vs
      ∧ (t.ea, t.eb) = fletcher (Config.stx :: vs)

/-- R316: changing one covered byte changes `a` by the difference, which is not 0. -/
def Obligations.OneChangedByteChangesTheChecksum : Prop :=
  ∀ (xs ys : List Byte) (v v' : Byte), v ≠ v' →
    (fletcher (xs ++ v' :: ys)).1 = (fletcher (xs ++ v :: ys)).1 + (v' - v)
      ∧ (fletcher (xs ++ v' :: ys)).1 ≠ (fletcher (xs ++ v :: ys)).1

/-- R316, R319: a payload byte changed on the way makes the decode fail with ChecksumMismatch at the checksum bytes. -/
def Obligations.ChangedPayloadByteIsCaught : Prop :=
  ∀ (C : Params) (h : List Byte) (before after : List (Byte × List Byte)) (tag : Byte) (xs ys : List Byte) (v v' : Byte)
    (s : State), C.wf = true → HeaderFits h →
    (∀ e ∈ before ++ (tag, xs ++ v :: ys) :: after, EntryFits C e) → v ≠ v' →
    let sent := before ++ (tag, xs ++ v :: ys) :: after
    let received := h ++ spanBytes (before ++ (tag, xs ++ v' :: ys) :: after)
      ++ [(fletcher (spanBytes sent)).1, (fletcher (spanBytes sent)).2]
    received.length ≤ C.ibufSize →
    decodeMsg C received s = .err .checksumMismatch (BitVec.ofNat 16 (received.length - 2)) 0

/-- 44_checksum.md R316 also says that after ANY change of one covered byte 'in every case the decode fails'. Expected to
FAIL: when STX itself is damaged, the decoder takes the next bytes for a gateway header (R331), and a payload that holds a
whole message at offset 5 then decodes. -/
def Obligations.AnyChangedCoveredByteIsCaught : Prop :=
  ∀ (es : List (Byte × List Byte)) (xs ys : List Byte) (v v' : Byte) (s : State),
    (∀ e ∈ es, EntryFits defaultParams e) → spanBytes es = xs ++ v :: ys → v ≠ v' →
    (messageBytes es).length ≤ defaultParams.ibufSize →
    let received := xs ++ v' :: ys ++ [(fletcher (spanBytes es)).1, (fletcher (spanBytes es)).2]
    (decodeAfter defaultParams received s).dstate = .dFail

/-! ## The decoder's entries -/

/-- R340, R113, R150, R153 to R156: a marker entry makes its slot valid with no element. That an entry is a step of its own, and
that it acts alike in a state outside a DEC_RUN, is the model's DESIGN CHOICE (logs 3 and 14). -/
def Obligations.MarkerEntriesAreStored : Prop :=
  ∀ s : State, ∀ p ∈ ([(.stx, 0x02), (.userfunc1, 0x58), (.userfunc2, 0x59), (.userfunc3, 0x5a), (.userfunc4, 0x5b)]
      : List (Instr × Byte)),
    EntryEffect p.1 p.2 [] 0 s

/-- R341, R36: the one-byte unsigned scalars. That an entry is a step of its own, and that it acts alike in a state outside a
DEC_RUN, is the model's DESIGN CHOICE (logs 3 and 14). -/
def Obligations.OneByteEntriesAreStored : Prop :=
  ∀ (s : State) (u : Byte), ∀ p ∈ ([(.swver u, 0x04), (.month u, 0x0e), (.day u, 0x0f), (.hour u, 0x10), (.min u, 0x11),
      (.sec u, 0x12), (.sats u, 0x1a), (.fix u, 0x1c), (.userval1 u, 0x20), (.userval2 u, 0x21), (.flags1 u, 0x31),
      (.flags2 u, 0x32), (.geofnum u, 0x3a), (.dynmodel u, 0x4b)] : List (Instr × Byte)),
    EntryEffect p.1 p.2 [BitVec.ofNat 32 u.toNat] 1 s

/-- R341, R36: the two-byte scalars, zero-extended where the field is unsigned and sign-extended where it is signed. That an entry
is a step of its own, and that it acts alike in a state outside a DEC_RUN, is the model's DESIGN CHOICE (logs 3 and 14). -/
def Obligations.TwoByteEntriesAreStored : Prop :=
  ∀ (s : State) (u : Half),
    (∀ p ∈ ([(.battv u, 0x09), (.press u, 0x0a), (.humid u, 0x0c), (.year u, 0x0d), (.millis u, 0x13), (.pdop u, 0x1b),
        (.userval3 u, 0x22), (.userval4 u, 0x23), (.hipress u, 0x34), (.lopress u, 0x35), (.hihumid u, 0x38),
        (.lohumid u, 0x39), (.wakeint u, 0x47), (.alarmint u, 0x48), (.txint u, 0x49), (.lowbatt u, 0x4a),
        (.userfunc5 u, 0x5c), (.userfunc6 u, 0x5d)] : List (Instr × Byte)),
      EntryEffect p.1 p.2 [BitVec.ofNat 32 u.toNat] 2 s)
    ∧ ∀ p ∈ ([(.temp u, 0x0b), (.hitemp u, 0x36), (.lotemp u, 0x37)] : List (Instr × Byte)),
      EntryEffect p.1 p.2 [BitVec.ofInt 32 u.toInt] 2 s

/-- R341, R342, R36: the four-byte scalars: unsigned, signed and binary32 patterns are stored as they are. That an entry is a step
of its own, and that it acts alike in a state outside a DEC_RUN, is the model's DESIGN CHOICE (logs 3 and 14). -/
def Obligations.FourByteEntriesAreStored : Prop :=
  ∀ (s : State) (u : Word), ∀ p ∈ ([(.source u, 0x08), (.lat u, 0x15), (.lon u, 0x16), (.alt u, 0x17), (.speed u, 0x18),
      (.head u, 0x19), (.userval5 u, 0x24), (.userval6 u, 0x25), (.userval7 u, 0x26), (.userval8 u, 0x27), (.dest u, 0x33),
      (.geof1lat u, 0x3b), (.geof1lon u, 0x3c), (.geof1rad u, 0x3d), (.geof2lat u, 0x3e), (.geof2lon u, 0x3f),
      (.geof2rad u, 0x40), (.geof3lat u, 0x41), (.geof3lon u, 0x42), (.geof3rad u, 0x43), (.geof4lat u, 0x44),
      (.geof4lon u, 0x45), (.geof4rad u, 0x46), (.userfunc7 u, 0x5e), (.userfunc8 u, 0x5f)] : List (Instr × Byte)),
    EntryEffect p.1 p.2 [u] 4 s

/-- R343, R344, R36: the arrays GEOFSTAT, MOFIELDS and RBHEAD and the record DATETIME, element by element. That an entry is a step
of its own, and that it acts alike in a state outside a DEC_RUN, is the model's DESIGN CHOICE (logs 3 and 14). -/
def Obligations.ArrayAndRecordEntriesAreStored : Prop :=
  ∀ s : State,
    (∀ a b c : Byte, EntryEffect (.geofstat a b c) 0x1d
        [BitVec.ofNat 32 a.toNat, BitVec.ofNat 32 b.toNat, BitVec.ofNat 32 c.toNat] 3 s)
    ∧ (∀ a b c : Word, EntryEffect (.mofields a b c) 0x30 [a, b, c] 12 s)
    ∧ (∀ a b c d : Byte, EntryEffect (.rbhead a b c d) 0x52
        [BitVec.ofNat 32 a.toNat, BitVec.ofNat 32 b.toNat, BitVec.ofNat 32 c.toNat, BitVec.ofNat 32 d.toNat] 4 s)
    ∧ ∀ (year : Half) (month day hour minute second : Byte),
      EntryEffect (.datetime year month day hour minute second) 0x14
        [BitVec.ofNat 32 year.toNat, BitVec.ofNat 32 month.toNat, BitVec.ofNat 32 day.toNat, BitVec.ofNat 32 hour.toNat,
          BitVec.ofNat 32 minute.toNat, BitVec.ofNat 32 second.toNat] 7 s

/-- R337, R338, R339, R413 (b), R414, R415: ETX under the cursor ends the decode: with the checksum of the bytes from the start
of the message to it, the decode succeeds, lacks its tail or is a mismatch. A state inside a DEC_RUN, and ETX as a step of its
own, are the model's DESIGN CHOICE (log 3). -/
def Obligations.EtxEndsTheDecode : Prop :=
  ∀ s : State, s.walking = true → s.rc < s.ilen.toNat →
    ∃ t, exec .etx s = .next t
      ∧ (t.da, t.db) = fletcher (ibufRead s s.dOff (s.rc + 1 - s.dOff))
      ∧ (if s.ilen.toNat < s.rc + 3 then DecodeFailed .truncatedMessage (s.rc + 1) 0 t
        else if fletcher (ibufRead s s.dOff (s.rc + 1 - s.dOff)) = (ibufByte s (s.rc + 1), ibufByte s (s.rc + 2)) then
          t.dstate = .dOk ∧ t.derr = .ok ∧ t.dpos.toNat = s.rc + 3 ∧ t.dtag = 0 ∧ t.cres = .ok ∧ SameResults s t
        else DecodeFailed .checksumMismatch (s.rc + 1) 0 t)
      ∧ t.dhdr = s.dhdr ∧ DecRunFrame s t

/-! ## The decoder as a command and as a function -/

/-- R330, R346, R351: DEC_RUN completes in every state; it succeeds, or fails with one of four codes and no result left; DHDR
says which start offset was taken; a computed checksum stands in DA and DB exactly where R346 says; the rest of the block is
as before. -/
def Obligations.DecRunCompletes : Prop :=
  ∀ s : State, ∃ t, exec .decRun s = .next t
    ∧ ((t.dstate = .dOk ∧ t.derr = .ok ∧ t.cres = .ok ∧ t.dtag = 0 ∧ t.dpos.toNat ≤ s.ilen.toNat)
      ∨ (t.dstate = .dFail ∧ t.cres = t.derr
        ∧ t.derr ∈ [ResultCode.unknownField, .malformedMessage, .truncatedMessage, .checksumMismatch]
        ∧ NoResults t ∧ t.dcnt = 0
        ∧ (t.derr ≠ .checksumMismatch → ¬ (t.derr = .truncatedMessage ∧ t.dtag = 0) → t.da = 0 ∧ t.db = 0)))
    ∧ (t.dhdr = true ↔ 0 < s.ilen.toNat ∧ ibufByte s 0 ≠ Config.stx)
    ∧ DecRunFrame s t

/-- R412: the four causes of MalformedMessage and what each records. -/
def Obligations.MalformedMessageCauses : Prop :=
  (∀ s : State, s.ilen = 0 →
      ∃ t, exec .decRun s = .next t ∧ DecodeFailed .malformedMessage 0 0 t ∧ t.dhdr = false ∧ t.da = 0 ∧ t.db = 0)
    ∧ (∀ s : State, s.ilen ≠ 0 → ibufByte s 0 ≠ 0x02 → s.ilen.toNat ≤ 5 →
      ∃ t, exec .decRun s = .next t ∧ DecodeFailed .malformedMessage 5 0 t ∧ t.dhdr = true ∧ t.da = 0 ∧ t.db = 0)
    ∧ (∀ s : State, 5 < s.ilen.toNat → ibufByte s 0 ≠ 0x02 → ibufByte s 5 ≠ 0x02 →
      ∃ t, exec .decRun s = .next t ∧ DecodeFailed .malformedMessage 5 0 t ∧ t.dhdr = true ∧ t.da = 0 ∧ t.db = 0)
    ∧ ∀ (s : State) (h : List Byte) (es : List (Byte × List Byte)), HeaderFits h → (∀ e ∈ es, EntryFits defaultParams e) →
      ibufRead s 0 s.ilen.toNat = h ++ Config.stx :: entriesBytes es →
      ∃ t, exec .decRun s = .next t ∧ DecodeFailed .malformedMessage s.ilen.toNat 0 t ∧ t.dhdr = !h.isEmpty
        ∧ t.da = 0 ∧ t.db = 0

/-- R420, R411, R413, R414, R346: after any entries that parse, the first defect ends the decode with its code, offset and
tag, and the entries before it do not survive. -/
def Obligations.FirstDefectEndsTheDecode : Prop :=
  ∀ (s : State) (h : List Byte) (es : List (Byte × List Byte)) (tail : List Byte),
    HeaderFits h → (∀ e ∈ es, EntryFits defaultParams e) →
    ibufRead s 0 s.ilen.toNat = h ++ Config.stx :: (entriesBytes es ++ tail) →
    let pos := h.length + 1 + (entriesBytes es).length
    (∀ tag p, tail = tag :: p → tag ≠ Config.etx → regDefault tag = none →
        ∃ t, exec .decRun s = .next t ∧ DecodeFailed .unknownField pos tag t ∧ t.da = 0 ∧ t.db = 0)
    ∧ (∀ tag p d, tail = tag :: p → tag ≠ Config.etx → regDefault tag = some d → p.length < paylen d.type →
        ∃ t, exec .decRun s = .next t ∧ DecodeFailed .truncatedMessage pos tag t ∧ t.da = 0 ∧ t.db = 0)
    ∧ (∀ p, tail = Config.etx :: p → p.length < 2 →
        ∃ t, exec .decRun s = .next t ∧ DecodeFailed .truncatedMessage (pos + 1) 0 t
          ∧ (t.da, t.db) = fletcher (spanBytes es))
    ∧ ∀ a b p, tail = Config.etx :: a :: b :: p → (a, b) ≠ fletcher (spanBytes es) →
        ∃ t, exec .decRun s = .next t ∧ DecodeFailed .checksumMismatch (pos + 1) 0 t
          ∧ (t.da, t.db) = fletcher (spanBytes es)

/-- R339, R345, R347, R348, R349, R415: a message with a right checksum, after a header or not, whatever follows it, decodes;
its entries fill the result store, the later of two with one tag winning. -/
def Obligations.DecRunDecodesAMessage : Prop :=
  ∀ (s : State) (h : List Byte) (es : List (Byte × List Byte)) (z : List Byte),
    HeaderFits h → (∀ e ∈ es, EntryFits defaultParams e) →
    ibufRead s 0 s.ilen.toNat = h ++ messageBytes es ++ z →
    ∃ t, exec .decRun s = .next t
      ∧ t.dstate = .dOk ∧ t.derr = .ok ∧ t.cres = .ok ∧ t.dtag = 0
      ∧ t.dpos.toNat = h.length + (messageBytes es).length ∧ t.dhdr = !h.isEmpty
      ∧ (t.da, t.db) = fletcher (spanBytes es) ∧ t.dcnt.toNat = es.length
      ∧ t.res = entriesStore defaultParams es
      ∧ DecRunFrame s t

/-- R345, R36: the store after a list of entries holds, for each tag, the slot of the last entry with that tag. -/
def Obligations.LastEntryOfATagWins : Prop :=
  ∀ (C : Params) (es : List (Byte × List Byte)) (tag : Byte), (∀ e ∈ es, EntryFits C e) →
    lookup (entriesStore C es) tag.toNat
      = (es.reverse.find? fun e => e.1 == tag).bind fun e => (C.reg tag).map fun d => slotOf d.type e.2

/-- R350, R339, R347, R349, for every well-formed registry: DecodeMsg of a message gives its mapping. -/
def Obligations.DecodeMessageGivesTheMapping : Prop :=
  ∀ (C : Params) (h : List Byte) (es : List (Byte × List Byte)) (z : List Byte) (s : State), C.wf = true →
    HeaderFits h → (∀ e ∈ es, EntryFits C e) → (h ++ messageBytes es ++ z).length ≤ C.ibufSize →
    decodeMsg C (h ++ messageBytes es ++ z) s
      = .ok ((entriesStore C es).map fun p => (p.1, p.2.e.toList.take p.2.n.toNat))

/-- R40 (a), R452: everything DEC_RUN leaves behind depends on the registry, ILEN and the loaded bytes alone. -/
def Obligations.DecodeForgetsThePast : Prop :=
  ∀ (C : Params) (s s' : State), s.ilen = s'.ilen → (∀ a, a < s.ilen.toNat → ibufByte s a = ibufByte s' a) →
    (decRun C s).res = (decRun C s').res ∧ (decRun C s).dcnt = (decRun C s').dcnt
      ∧ SameDecRegs (decRun C s) (decRun C s') ∧ (decRun C s).cres = (decRun C s').cres

/-- R295: a field that ENC_FIELD accepted, in a message with no other accepted entry of its tag, has after the decode of the
finished message the value it was given: exactly, and for a scaled field within half a unit of the last place. -/
def Obligations.FieldsSurviveTheRoundTrip : Prop :=
  ∀ (C : Params) (os : List Operand) (n : Nat) (o : Operand) (d : Record) (s s' : State), C.wf = true →
    os[n]? = some o → C.reg o.id = some d → (encodeCodes C os s)[n]? = some .ok →
    (∀ (j : Nat) (o' : Operand), j ≠ n → os[j]? = some o' → (encodeCodes C os s)[j]? = some .ok → o'.id ≠ o.id) →
    (encodeBytes C os s).length ≤ C.ibufSize →
    let t := decodeAfter C (encodeBytes C os s) s'
    t.dstate = .dOk ∧ resValid t o.id.toNat = true ∧ RoundTrips d o (resSlot t o.id.toNat)
end

