-- ==== Sys2Proof/Laws/Fetch.lean ====
section
/-! SUPPORT. Everything fetching the next instruction can do (R21, R386, R333 to R335), said once. -/

namespace Sys2Proof.Machine

/-- Inside a DEC_RUN: an instruction of the table that the registry has in the table's format, or one turn of the loop. -/
theorem fetchEntry_cases (C : Params) (s : State) :
    (∃ i rest, decodeEntry (entryBytes s) = .entry i rest ∧ i.wf C = true ∧ fetchEntry C s = .run i s)
    ∨ ((∀ i rest, decodeEntry (entryBytes s) = .entry i rest → i.wf C = false) ∧ fetchEntry C s = .done (decStep C s)) := by
  unfold fetchEntry
  cases h : decodeEntry (entryBytes s) with
  | entry i rest =>
    cases hw : i.wf C with
    | true => exact Or.inl ⟨i, rest, rfl, hw, by simp only [hw, if_true]⟩
    | false =>
      refine Or.inr ⟨fun i' rest' h' => ?_, by simp only [hw, Bool.false_eq_true, if_false]⟩
      cases h'
      exact hw
  | unknown tag => exact Or.inr ⟨(by rintro _ _ ⟨⟩), rfl⟩
  | truncated tag => exact Or.inr ⟨(by rintro _ _ ⟨⟩), rfl⟩
  | empty => exact Or.inr ⟨(by rintro _ _ ⟨⟩), rfl⟩

/-- Between commands: a command, an illegal code, another write, a read, a power-on, or nothing. -/
theorem fetchHost_cases (C : Params) (s : State) :
    (s.pending = [] ∧ fetchHost C s = .done s)
    ∨ (∃ off rest, s.pending = .read off :: rest ∧ fetchHost C s = .done { s with pending := rest })
    ∨ (∃ rest, s.pending = .powerOn :: rest ∧ fetchHost C s = .done (powerOn { s with pending := rest }))
    ∨ (∃ off v rest i, s.pending = .write off v :: rest ∧ regOf C off = .cmd ∧ decodeCommand (v.setWidth 8) = some i
        ∧ fetchHost C s = .run i { s with pending := rest })
    ∨ (∃ off v rest, s.pending = .write off v :: rest ∧ regOf C off = .cmd ∧ decodeCommand (v.setWidth 8) = none
        ∧ fetchHost C s = .done (illegalCommand { s with pending := rest }))
    ∨ (∃ off v rest, s.pending = .write off v :: rest ∧ regOf C off ≠ .cmd
        ∧ fetchHost C s = .done (writeReg C (regOf C off) v { s with pending := rest })) := by
  unfold fetchHost
  cases hp : s.pending with
  | nil => exact Or.inl ⟨rfl, rfl⟩
  | cons a rest =>
    cases a with
    | read off => exact Or.inr (Or.inl ⟨off, rest, rfl, rfl⟩)
    | powerOn => exact Or.inr (Or.inr (Or.inl ⟨rest, rfl, rfl⟩))
    | write off v =>
      simp only
      by_cases hc : regOf C off = .cmd
      · cases hd : decodeCommand (v.setWidth 8) with
        | some i =>
          refine Or.inr (Or.inr (Or.inr (Or.inl ⟨off, v, rest, i, rfl, hc, hd, ?_⟩)))
          simp only [fetchWrite, hc, hd]
        | none =>
          refine Or.inr (Or.inr (Or.inr (Or.inr (Or.inl ⟨off, v, rest, rfl, hc, hd, ?_⟩))))
          simp only [fetchWrite, hc, hd]
      · refine Or.inr (Or.inr (Or.inr (Or.inr (Or.inr ⟨off, v, rest, rfl, hc, ?_⟩))))
        unfold fetchWrite
        cases hr : regOf C off <;> simp_all

/-! ### The windows of the register map (R42) -/

theorem regOf_ibuf {a : Nat} (ha : a < 512) : regOf defaultParams (0x1000 + a) = .ibuf a := by
  have h : defaultParams.ibufSize = 512 := rfl
  unfold regOf
  split <;> try omega
  simp only [windowOf, h]
  rw [if_pos (by omega)]
  exact congrArg HostReg.ibuf (by omega)

theorem regOf_obuf {a : Nat} (ha : a < 512) : regOf defaultParams (0x2000 + a) = .obuf a := by
  have h : defaultParams.ibufSize = 512 := rfl
  have h' : defaultParams.obufSize = 512 := rfl
  unfold regOf
  split <;> try omega
  simp only [windowOf, h, h']
  rw [if_neg (by omega), if_pos (by omega)]
  exact congrArg HostReg.obuf (by omega)

theorem regOf_resHeader {id : Nat} (hid : id < 256) : regOf defaultParams (0x4000 + 0x40 * id) = .resHeader id := by
  have h : defaultParams.ibufSize = 512 := rfl
  have h' : defaultParams.obufSize = 512 := rfl
  unfold regOf
  split <;> try omega
  simp only [windowOf, h, h']
  rw [if_neg (by omega), if_neg (by omega), if_pos (by omega)]
  have h1 : (0x4000 + 0x40 * id - 0x4000) / 0x40 = id := by omega
  have h2 : (0x4000 + 0x40 * id - 0x4000) % 0x40 = 0 := by omega
  simp only [h1, h2, if_true]

theorem regOf_resElem {id : Nat} (hid : id < 256) (k : Fin 8) :
    regOf defaultParams (0x4000 + 0x40 * id + 4 + 4 * k.val) = .resElem id k.val := by
  have h : defaultParams.ibufSize = 512 := rfl
  have h' : defaultParams.obufSize = 512 := rfl
  have hk := k.isLt
  unfold regOf
  split <;> try omega
  simp only [windowOf, h, h']
  rw [if_neg (by omega), if_neg (by omega), if_pos (by omega)]
  have h1 : (0x4000 + 0x40 * id + 4 + 4 * k.val - 0x4000) / 0x40 = id := by omega
  have h2 : (0x4000 + 0x40 * id + 4 + 4 * k.val - 0x4000) % 0x40 = 4 + 4 * k.val := by omega
  simp only [h1, h2]
  rw [if_neg (by omega), if_pos (by omega)]
  exact congrArg (HostReg.resElem id) (by omega)

/-- The elements of a vector as the register map reads them. -/
theorem vector_getD (v : Vector Word 8) (k : Fin 8) : v.toList.getD k.val 0 = v[k] := by
  simp

/-- An element written by index, as the register map writes it. -/
theorem vector_setIfInBounds (v : Vector Word 8) (k : Fin 8) (x : Word) : v.setIfInBounds k.val x = v.set k x := by
  ext i hi
  simp [Vector.getElem_setIfInBounds, Vector.getElem_set]

end Sys2Proof.Machine
end

