-- ==== Sys2Proof/Laws/Block.lean ====
section
/-! SUPPORT. Everything one step of a block with any parameters can do, said once. -/

namespace Sys2Proof.Machine

/-- An entry executes alike whatever the parameters: its constructor fixes its format. -/
theorem execWith_entry (C : Params) (i : Instr) (s : State) (h : i.space = .entry) : execWith C i s = exec i s := by
  cases i <;> first | rfl | cases h

/-- What each command does under any parameters. -/
theorem execWith_command (C : Params) (i : Instr) (s : State) (h : i.space = .command) :
    execWith C i s = .next (match i with
      | .nop => { s with cres := .ok }
      | .encBegin => encBegin C s
      | .encField => encField C s
      | .encEnd => encEnd C s
      | .decRun => decRun C s
      | .regTypeof => regTypeof C s
      | .regScaleof => regScaleof C s
      | .reset => commandReset s
      | _ => s) := by
  cases i <;> first | rfl | cases h

/-- A code names commands alone (R120). -/
theorem space_of_decodeCommand {code : Byte} {i : Instr} (h : decodeCommand code = some i) : i.space = .command := by
  unfold decodeCommand at h
  split at h <;> first | (obtain rfl := Option.some.inj h; rfl) | cases h

/-- Inside a DEC_RUN: an instruction of the table in the table's format, or one turn of the loop. -/
theorem stepWith_walking (C : Params) {s : State} (h : s.walking = true) :
    (∃ i rest, decodeEntry (entryBytes s) = .entry i rest ∧ i.wf C = true ∧ stepWith C s = execWith C i s)
    ∨ stepWith C s = .next (decStep C s) := by
  have hf : fetch C s = fetchEntry C s := if_pos h
  unfold stepWith
  rw [hf]
  rcases fetchEntry_cases C s with ⟨i, rest, hd, hw, he⟩ | ⟨_, he⟩ <;> rw [he]
  · exact Or.inl ⟨i, rest, hd, hw, rfl⟩
  · exact Or.inr rfl

/-- Between commands: a command that the host's next access gives (`fetchHost_cases`) is executed. -/
theorem stepWith_of_run (C : Params) {s t : State} {i : Instr} (h : s.walking = false) (hf : fetchHost C s = .run i t) :
    stepWith C s = execWith C i t := by
  simp only [stepWith, fetch, h, Bool.false_eq_true, if_false, hf]

/-- Between commands: an access that runs no command ends the step. -/
theorem stepWith_of_done (C : Params) {s t : State} (h : s.walking = false) (hf : fetchHost C s = .done t) :
    stepWith C s = .next t := by
  simp only [stepWith, fetch, h, Bool.false_eq_true, if_false, hf]

end Sys2Proof.Machine
end

