-- ==== Sys2Proof/Laws/Decode.lean ====
section
/-! SUPPORT. The byte-order primitives (R11) and their inverses, and the lengths of encodings. -/

namespace Sys2Proof

@[simp] theorem leBytes_zero (v : Nat) : leBytes 0 v = [] := rfl

theorem leBytes_succ (w v : Nat) : leBytes (w + 1) v = BitVec.ofNat 8 v :: leBytes w (v / 256) := rfl

@[simp] theorem leUint_nil : leUint [] = 0 := rfl

@[simp] theorem leUint_cons (b : Byte) (s : List Byte) : leUint (b :: s) = b.toNat + 256 * leUint s := rfl

@[simp] theorem leBytes_length (w v : Nat) : (leBytes w v).length = w := by
  induction w generalizing v with
  | zero => rfl
  | succ w ih => simp [leBytes_succ, ih]

@[simp] theorem leBytesInt_length (w : Nat) (v : Int) : (leBytesInt w v).length = w := by
  simp [leBytesInt]

/-- A `w`-byte string is below `2^(8w)`. -/
theorem leUint_lt (s : List Byte) : leUint s < 256 ^ s.length := by
  induction s with
  | nil => simp
  | cons b s ih =>
    have := b.isLt
    simp only [leUint_cons, List.length_cons, Nat.pow_succ]
    omega

/-- Writing a number and reading it back gives the number modulo the width. -/
theorem leUint_leBytes (w v : Nat) : leUint (leBytes w v) = v % 256 ^ w := by
  induction w generalizing v with
  | zero => simp [Nat.mod_one]
  | succ w ih =>
    have h : (256 : Nat) ^ (w + 1) = 256 * 256 ^ w := by rw [Nat.pow_succ, Nat.mul_comm]
    rw [leBytes_succ, leUint_cons, ih, h, Nat.mod_mul, BitVec.toNat_ofNat]

/-- Reading a byte string and writing it back gives the string. -/
theorem leBytes_leUint (s : List Byte) : leBytes s.length (leUint s) = s := by
  induction s with
  | nil => rfl
  | cons b s ih =>
    have hb := b.isLt
    have h1 : BitVec.ofNat 8 (b.toNat + 256 * leUint s) = b := by
      apply BitVec.eq_of_toNat_eq
      simp only [BitVec.toNat_ofNat]
      omega
    have h2 : (b.toNat + 256 * leUint s) / 256 = leUint s := by omega
    rw [List.length_cons, leUint_cons, leBytes_succ, h1, h2, ih]

theorem le16_toNat (b0 b1 : Byte) : (le16 b0 b1).toNat = leUint [b0, b1] := by
  have h0 := b0.isLt
  simp only [le16, BitVec.toNat_append, leUint_cons, leUint_nil]
  rw [← Nat.shiftLeft_add_eq_or_of_lt h0, Nat.shiftLeft_eq]
  omega

theorem le32_toNat (b0 b1 b2 b3 : Byte) : (le32 b0 b1 b2 b3).toNat = leUint [b0, b1, b2, b3] := by
  have h0 := b0.isLt
  have h1 := b1.isLt
  have h2 := b2.isLt
  simp only [le32, BitVec.toNat_append, leUint_cons, leUint_nil]
  rw [← Nat.shiftLeft_add_eq_or_of_lt h0, ← Nat.shiftLeft_add_eq_or_of_lt h1, ← Nat.shiftLeft_add_eq_or_of_lt h2,
    Nat.shiftLeft_eq, Nat.shiftLeft_eq, Nat.shiftLeft_eq]
  omega

/-- The one byte of a byte. -/
theorem leBytes_one (u : Byte) : leBytes 1 u.toNat = [u] := by
  simp [leBytes_succ]

/-- A 16-bit value's two bytes assemble to it. -/
theorem le16_bytes (u : Half) : le16 (BitVec.ofNat 8 u.toNat) (BitVec.ofNat 8 (u.toNat / 256)) = u := by
  apply BitVec.eq_of_toNat_eq
  have := u.isLt
  rw [le16_toNat]
  simp only [leUint_cons, leUint_nil, BitVec.toNat_ofNat]
  omega

/-- A 32-bit value's four bytes assemble to it. -/
theorem le32_bytes (u : Word) :
    le32 (BitVec.ofNat 8 u.toNat) (BitVec.ofNat 8 (u.toNat / 256)) (BitVec.ofNat 8 (u.toNat / 256 / 256))
      (BitVec.ofNat 8 (u.toNat / 256 / 256 / 256)) = u := by
  apply BitVec.eq_of_toNat_eq
  have := u.isLt
  rw [le32_toNat]
  simp only [leUint_cons, leUint_nil, BitVec.toNat_ofNat]
  omega

/-- The same with the low byte written as a truncation, the form that simp gives it. -/
@[simp] theorem le16_setWidth (u : Half) : le16 (u.setWidth 8) (BitVec.ofNat 8 (u.toNat / 256)) = u := by
  have h : u.setWidth 8 = BitVec.ofNat 8 u.toNat := by simp
  rw [h, le16_bytes]

@[simp] theorem le32_setWidth (u : Word) :
    le32 (u.setWidth 8) (BitVec.ofNat 8 (u.toNat / 256)) (BitVec.ofNat 8 (u.toNat / 256 / 256))
      (BitVec.ofNat 8 (u.toNat / 256 / 256 / 256)) = u := by
  have h : u.setWidth 8 = BitVec.ofNat 8 u.toNat := by simp
  rw [h, le32_bytes]

theorem leBytes_le16 (b0 b1 : Byte) : leBytes 2 (le16 b0 b1).toNat = [b0, b1] := by
  rw [le16_toNat]
  exact leBytes_leUint [b0, b1]

theorem leBytes_le32 (b0 b1 b2 b3 : Byte) : leBytes 4 (le32 b0 b1 b2 b3).toNat = [b0, b1, b2, b3] := by
  rw [le32_toNat]
  exact leBytes_leUint [b0, b1, b2, b3]

end Sys2Proof
end

