-- ==== Sys2Proof/Laws/State.lean ====
section
/-! SUPPORT. One lemma per field of State and per update, each true by rfl: a proof reads a field of an updated state
without unfolding the update. -/

namespace Sys2Proof.Machine

/-! ### emit (R262) -/

@[simp] theorem emit_opId (C : Params) (v : Byte) (s : State) : (emit C v s).opId = s.opId := rfl
@[simp] theorem emit_opKind (C : Params) (v : Byte) (s : State) : (emit C v s).opKind = s.opKind := rfl
@[simp] theorem emit_opN (C : Params) (v : Byte) (s : State) : (emit C v s).opN = s.opN := rfl
@[simp] theorem emit_opExp (C : Params) (v : Byte) (s : State) : (emit C v s).opExp = s.opExp := rfl
@[simp] theorem emit_opMantLo (C : Params) (v : Byte) (s : State) : (emit C v s).opMantLo = s.opMantLo := rfl
@[simp] theorem emit_opMantHi (C : Params) (v : Byte) (s : State) : (emit C v s).opMantHi = s.opMantHi := rfl
@[simp] theorem emit_ope (C : Params) (v : Byte) (s : State) : (emit C v s).ope = s.ope := rfl
@[simp] theorem emit_cres (C : Params) (v : Byte) (s : State) : (emit C v s).cres = s.cres := rfl
@[simp] theorem emit_estate (C : Params) (v : Byte) (s : State) : (emit C v s).estate = s.estate := rfl
@[simp] theorem emit_obuf (C : Params) (v : Byte) (s : State) : (emit C v s).obuf = bufWrite C.obufSize s.obuf s.wc.toNat v := rfl
@[simp] theorem emit_wc (C : Params) (v : Byte) (s : State) : (emit C v s).wc = s.wc + 1 := rfl
@[simp] theorem emit_ea (C : Params) (v : Byte) (s : State) : (emit C v s).ea = s.ea + v := rfl
@[simp] theorem emit_eb (C : Params) (v : Byte) (s : State) : (emit C v s).eb = s.eb + (s.ea + v) := rfl
@[simp] theorem emit_efcnt (C : Params) (v : Byte) (s : State) : (emit C v s).efcnt = s.efcnt := rfl
@[simp] theorem emit_ewcnt (C : Params) (v : Byte) (s : State) : (emit C v s).ewcnt = s.ewcnt := rfl
@[simp] theorem emit_advLen (C : Params) (v : Byte) (s : State) : (emit C v s).advLen = s.advLen := rfl
@[simp] theorem emit_ibuf (C : Params) (v : Byte) (s : State) : (emit C v s).ibuf = s.ibuf := rfl
@[simp] theorem emit_ilen (C : Params) (v : Byte) (s : State) : (emit C v s).ilen = s.ilen := rfl
@[simp] theorem emit_dstate (C : Params) (v : Byte) (s : State) : (emit C v s).dstate = s.dstate := rfl
@[simp] theorem emit_derr (C : Params) (v : Byte) (s : State) : (emit C v s).derr = s.derr := rfl
@[simp] theorem emit_dpos (C : Params) (v : Byte) (s : State) : (emit C v s).dpos = s.dpos := rfl
@[simp] theorem emit_dtag (C : Params) (v : Byte) (s : State) : (emit C v s).dtag = s.dtag := rfl
@[simp] theorem emit_da (C : Params) (v : Byte) (s : State) : (emit C v s).da = s.da := rfl
@[simp] theorem emit_db (C : Params) (v : Byte) (s : State) : (emit C v s).db = s.db := rfl
@[simp] theorem emit_dhdr (C : Params) (v : Byte) (s : State) : (emit C v s).dhdr = s.dhdr := rfl
@[simp] theorem emit_dcnt (C : Params) (v : Byte) (s : State) : (emit C v s).dcnt = s.dcnt := rfl
@[simp] theorem emit_res (C : Params) (v : Byte) (s : State) : (emit C v s).res = s.res := rfl
@[simp] theorem emit_qType (C : Params) (v : Byte) (s : State) : (emit C v s).qType = s.qType := rfl
@[simp] theorem emit_qScale (C : Params) (v : Byte) (s : State) : (emit C v s).qScale = s.qScale := rfl
@[simp] theorem emit_walking (C : Params) (v : Byte) (s : State) : (emit C v s).walking = s.walking := rfl
@[simp] theorem emit_dOff (C : Params) (v : Byte) (s : State) : (emit C v s).dOff = s.dOff := rfl
@[simp] theorem emit_rc (C : Params) (v : Byte) (s : State) : (emit C v s).rc = s.rc := rfl
@[simp] theorem emit_pending (C : Params) (v : Byte) (s : State) : (emit C v s).pending = s.pending := rfl
@[simp] theorem emit_epoch (C : Params) (v : Byte) (s : State) : (emit C v s).epoch = s.epoch := rfl

/-! ### appendRaw (R288) -/

@[simp] theorem appendRaw_opId (C : Params) (v : Byte) (s : State) : (appendRaw C v s).opId = s.opId := rfl
@[simp] theorem appendRaw_opKind (C : Params) (v : Byte) (s : State) : (appendRaw C v s).opKind = s.opKind := rfl
@[simp] theorem appendRaw_opN (C : Params) (v : Byte) (s : State) : (appendRaw C v s).opN = s.opN := rfl
@[simp] theorem appendRaw_opExp (C : Params) (v : Byte) (s : State) : (appendRaw C v s).opExp = s.opExp := rfl
@[simp] theorem appendRaw_opMantLo (C : Params) (v : Byte) (s : State) : (appendRaw C v s).opMantLo = s.opMantLo := rfl
@[simp] theorem appendRaw_opMantHi (C : Params) (v : Byte) (s : State) : (appendRaw C v s).opMantHi = s.opMantHi := rfl
@[simp] theorem appendRaw_ope (C : Params) (v : Byte) (s : State) : (appendRaw C v s).ope = s.ope := rfl
@[simp] theorem appendRaw_cres (C : Params) (v : Byte) (s : State) : (appendRaw C v s).cres = s.cres := rfl
@[simp] theorem appendRaw_estate (C : Params) (v : Byte) (s : State) : (appendRaw C v s).estate = s.estate := rfl
@[simp] theorem appendRaw_obuf (C : Params) (v : Byte) (s : State) : (appendRaw C v s).obuf = bufWrite C.obufSize s.obuf s.wc.toNat v := rfl
@[simp] theorem appendRaw_wc (C : Params) (v : Byte) (s : State) : (appendRaw C v s).wc = s.wc + 1 := rfl
@[simp] theorem appendRaw_ea (C : Params) (v : Byte) (s : State) : (appendRaw C v s).ea = s.ea := rfl
@[simp] theorem appendRaw_eb (C : Params) (v : Byte) (s : State) : (appendRaw C v s).eb = s.eb := rfl
@[simp] theorem appendRaw_efcnt (C : Params) (v : Byte) (s : State) : (appendRaw C v s).efcnt = s.efcnt := rfl
@[simp] theorem appendRaw_ewcnt (C : Params) (v : Byte) (s : State) : (appendRaw C v s).ewcnt = s.ewcnt := rfl
@[simp] theorem appendRaw_advLen (C : Params) (v : Byte) (s : State) : (appendRaw C v s).advLen = s.advLen := rfl
@[simp] theorem appendRaw_ibuf (C : Params) (v : Byte) (s : State) : (appendRaw C v s).ibuf = s.ibuf := rfl
@[simp] theorem appendRaw_ilen (C : Params) (v : Byte) (s : State) : (appendRaw C v s).ilen = s.ilen := rfl
@[simp] theorem appendRaw_dstate (C : Params) (v : Byte) (s : State) : (appendRaw C v s).dstate = s.dstate := rfl
@[simp] theorem appendRaw_derr (C : Params) (v : Byte) (s : State) : (appendRaw C v s).derr = s.derr := rfl
@[simp] theorem appendRaw_dpos (C : Params) (v : Byte) (s : State) : (appendRaw C v s).dpos = s.dpos := rfl
@[simp] theorem appendRaw_dtag (C : Params) (v : Byte) (s : State) : (appendRaw C v s).dtag = s.dtag := rfl
@[simp] theorem appendRaw_da (C : Params) (v : Byte) (s : State) : (appendRaw C v s).da = s.da := rfl
@[simp] theorem appendRaw_db (C : Params) (v : Byte) (s : State) : (appendRaw C v s).db = s.db := rfl
@[simp] theorem appendRaw_dhdr (C : Params) (v : Byte) (s : State) : (appendRaw C v s).dhdr = s.dhdr := rfl
@[simp] theorem appendRaw_dcnt (C : Params) (v : Byte) (s : State) : (appendRaw C v s).dcnt = s.dcnt := rfl
@[simp] theorem appendRaw_res (C : Params) (v : Byte) (s : State) : (appendRaw C v s).res = s.res := rfl
@[simp] theorem appendRaw_qType (C : Params) (v : Byte) (s : State) : (appendRaw C v s).qType = s.qType := rfl
@[simp] theorem appendRaw_qScale (C : Params) (v : Byte) (s : State) : (appendRaw C v s).qScale = s.qScale := rfl
@[simp] theorem appendRaw_walking (C : Params) (v : Byte) (s : State) : (appendRaw C v s).walking = s.walking := rfl
@[simp] theorem appendRaw_dOff (C : Params) (v : Byte) (s : State) : (appendRaw C v s).dOff = s.dOff := rfl
@[simp] theorem appendRaw_rc (C : Params) (v : Byte) (s : State) : (appendRaw C v s).rc = s.rc := rfl
@[simp] theorem appendRaw_pending (C : Params) (v : Byte) (s : State) : (appendRaw C v s).pending = s.pending := rfl
@[simp] theorem appendRaw_epoch (C : Params) (v : Byte) (s : State) : (appendRaw C v s).epoch = s.epoch := rfl

/-! ### storeEntry (R345, R336) -/

@[simp] theorem storeEntry_opId (tag : Byte) (slot : Slot) (len : Nat) (s : State) : (storeEntry tag slot len s).opId = s.opId := rfl
@[simp] theorem storeEntry_opKind (tag : Byte) (slot : Slot) (len : Nat) (s : State) : (storeEntry tag slot len s).opKind = s.opKind := rfl
@[simp] theorem storeEntry_opN (tag : Byte) (slot : Slot) (len : Nat) (s : State) : (storeEntry tag slot len s).opN = s.opN := rfl
@[simp] theorem storeEntry_opExp (tag : Byte) (slot : Slot) (len : Nat) (s : State) : (storeEntry tag slot len s).opExp = s.opExp := rfl
@[simp] theorem storeEntry_opMantLo (tag : Byte) (slot : Slot) (len : Nat) (s : State) : (storeEntry tag slot len s).opMantLo = s.opMantLo := rfl
@[simp] theorem storeEntry_opMantHi (tag : Byte) (slot : Slot) (len : Nat) (s : State) : (storeEntry tag slot len s).opMantHi = s.opMantHi := rfl
@[simp] theorem storeEntry_ope (tag : Byte) (slot : Slot) (len : Nat) (s : State) : (storeEntry tag slot len s).ope = s.ope := rfl
@[simp] theorem storeEntry_cres (tag : Byte) (slot : Slot) (len : Nat) (s : State) : (storeEntry tag slot len s).cres = s.cres := rfl
@[simp] theorem storeEntry_estate (tag : Byte) (slot : Slot) (len : Nat) (s : State) : (storeEntry tag slot len s).estate = s.estate := rfl
@[simp] theorem storeEntry_obuf (tag : Byte) (slot : Slot) (len : Nat) (s : State) : (storeEntry tag slot len s).obuf = s.obuf := rfl
@[simp] theorem storeEntry_wc (tag : Byte) (slot : Slot) (len : Nat) (s : State) : (storeEntry tag slot len s).wc = s.wc := rfl
@[simp] theorem storeEntry_ea (tag : Byte) (slot : Slot) (len : Nat) (s : State) : (storeEntry tag slot len s).ea = s.ea := rfl
@[simp] theorem storeEntry_eb (tag : Byte) (slot : Slot) (len : Nat) (s : State) : (storeEntry tag slot len s).eb = s.eb := rfl
@[simp] theorem storeEntry_efcnt (tag : Byte) (slot : Slot) (len : Nat) (s : State) : (storeEntry tag slot len s).efcnt = s.efcnt := rfl
@[simp] theorem storeEntry_ewcnt (tag : Byte) (slot : Slot) (len : Nat) (s : State) : (storeEntry tag slot len s).ewcnt = s.ewcnt := rfl
@[simp] theorem storeEntry_advLen (tag : Byte) (slot : Slot) (len : Nat) (s : State) : (storeEntry tag slot len s).advLen = s.advLen := rfl
@[simp] theorem storeEntry_ibuf (tag : Byte) (slot : Slot) (len : Nat) (s : State) : (storeEntry tag slot len s).ibuf = s.ibuf := rfl
@[simp] theorem storeEntry_ilen (tag : Byte) (slot : Slot) (len : Nat) (s : State) : (storeEntry tag slot len s).ilen = s.ilen := rfl
@[simp] theorem storeEntry_dstate (tag : Byte) (slot : Slot) (len : Nat) (s : State) : (storeEntry tag slot len s).dstate = s.dstate := rfl
@[simp] theorem storeEntry_derr (tag : Byte) (slot : Slot) (len : Nat) (s : State) : (storeEntry tag slot len s).derr = s.derr := rfl
@[simp] theorem storeEntry_dpos (tag : Byte) (slot : Slot) (len : Nat) (s : State) : (storeEntry tag slot len s).dpos = s.dpos := rfl
@[simp] theorem storeEntry_dtag (tag : Byte) (slot : Slot) (len : Nat) (s : State) : (storeEntry tag slot len s).dtag = s.dtag := rfl
@[simp] theorem storeEntry_da (tag : Byte) (slot : Slot) (len : Nat) (s : State) : (storeEntry tag slot len s).da = s.da := rfl
@[simp] theorem storeEntry_db (tag : Byte) (slot : Slot) (len : Nat) (s : State) : (storeEntry tag slot len s).db = s.db := rfl
@[simp] theorem storeEntry_dhdr (tag : Byte) (slot : Slot) (len : Nat) (s : State) : (storeEntry tag slot len s).dhdr = s.dhdr := rfl
@[simp] theorem storeEntry_dcnt (tag : Byte) (slot : Slot) (len : Nat) (s : State) : (storeEntry tag slot len s).dcnt = satInc s.dcnt := rfl
@[simp] theorem storeEntry_res (tag : Byte) (slot : Slot) (len : Nat) (s : State) : (storeEntry tag slot len s).res = insert s.res tag.toNat slot := rfl
@[simp] theorem storeEntry_qType (tag : Byte) (slot : Slot) (len : Nat) (s : State) : (storeEntry tag slot len s).qType = s.qType := rfl
@[simp] theorem storeEntry_qScale (tag : Byte) (slot : Slot) (len : Nat) (s : State) : (storeEntry tag slot len s).qScale = s.qScale := rfl
@[simp] theorem storeEntry_walking (tag : Byte) (slot : Slot) (len : Nat) (s : State) : (storeEntry tag slot len s).walking = s.walking := rfl
@[simp] theorem storeEntry_dOff (tag : Byte) (slot : Slot) (len : Nat) (s : State) : (storeEntry tag slot len s).dOff = s.dOff := rfl
@[simp] theorem storeEntry_rc (tag : Byte) (slot : Slot) (len : Nat) (s : State) : (storeEntry tag slot len s).rc = s.rc + 1 + len := rfl
@[simp] theorem storeEntry_pending (tag : Byte) (slot : Slot) (len : Nat) (s : State) : (storeEntry tag slot len s).pending = s.pending := rfl
@[simp] theorem storeEntry_epoch (tag : Byte) (slot : Slot) (len : Nat) (s : State) : (storeEntry tag slot len s).epoch = s.epoch := rfl

/-! ### decFail (R410) -/

@[simp] theorem decFail_opId (code : ResultCode) (pos : Nat) (tag : Byte) (s : State) : (decFail code pos tag s).opId = s.opId := rfl
@[simp] theorem decFail_opKind (code : ResultCode) (pos : Nat) (tag : Byte) (s : State) : (decFail code pos tag s).opKind = s.opKind := rfl
@[simp] theorem decFail_opN (code : ResultCode) (pos : Nat) (tag : Byte) (s : State) : (decFail code pos tag s).opN = s.opN := rfl
@[simp] theorem decFail_opExp (code : ResultCode) (pos : Nat) (tag : Byte) (s : State) : (decFail code pos tag s).opExp = s.opExp := rfl
@[simp] theorem decFail_opMantLo (code : ResultCode) (pos : Nat) (tag : Byte) (s : State) : (decFail code pos tag s).opMantLo = s.opMantLo := rfl
@[simp] theorem decFail_opMantHi (code : ResultCode) (pos : Nat) (tag : Byte) (s : State) : (decFail code pos tag s).opMantHi = s.opMantHi := rfl
@[simp] theorem decFail_ope (code : ResultCode) (pos : Nat) (tag : Byte) (s : State) : (decFail code pos tag s).ope = s.ope := rfl
@[simp] theorem decFail_cres (code : ResultCode) (pos : Nat) (tag : Byte) (s : State) : (decFail code pos tag s).cres = code := rfl
@[simp] theorem decFail_estate (code : ResultCode) (pos : Nat) (tag : Byte) (s : State) : (decFail code pos tag s).estate = s.estate := rfl
@[simp] theorem decFail_obuf (code : ResultCode) (pos : Nat) (tag : Byte) (s : State) : (decFail code pos tag s).obuf = s.obuf := rfl
@[simp] theorem decFail_wc (code : ResultCode) (pos : Nat) (tag : Byte) (s : State) : (decFail code pos tag s).wc = s.wc := rfl
@[simp] theorem decFail_ea (code : ResultCode) (pos : Nat) (tag : Byte) (s : State) : (decFail code pos tag s).ea = s.ea := rfl
@[simp] theorem decFail_eb (code : ResultCode) (pos : Nat) (tag : Byte) (s : State) : (decFail code pos tag s).eb = s.eb := rfl
@[simp] theorem decFail_efcnt (code : ResultCode) (pos : Nat) (tag : Byte) (s : State) : (decFail code pos tag s).efcnt = s.efcnt := rfl
@[simp] theorem decFail_ewcnt (code : ResultCode) (pos : Nat) (tag : Byte) (s : State) : (decFail code pos tag s).ewcnt = s.ewcnt := rfl
@[simp] theorem decFail_advLen (code : ResultCode) (pos : Nat) (tag : Byte) (s : State) : (decFail code pos tag s).advLen = s.advLen := rfl
@[simp] theorem decFail_ibuf (code : ResultCode) (pos : Nat) (tag : Byte) (s : State) : (decFail code pos tag s).ibuf = s.ibuf := rfl
@[simp] theorem decFail_ilen (code : ResultCode) (pos : Nat) (tag : Byte) (s : State) : (decFail code pos tag s).ilen = s.ilen := rfl
@[simp] theorem decFail_dstate (code : ResultCode) (pos : Nat) (tag : Byte) (s : State) : (decFail code pos tag s).dstate = .dFail := rfl
@[simp] theorem decFail_derr (code : ResultCode) (pos : Nat) (tag : Byte) (s : State) : (decFail code pos tag s).derr = code := rfl
@[simp] theorem decFail_dpos (code : ResultCode) (pos : Nat) (tag : Byte) (s : State) : (decFail code pos tag s).dpos = BitVec.ofNat 16 pos := rfl
@[simp] theorem decFail_dtag (code : ResultCode) (pos : Nat) (tag : Byte) (s : State) : (decFail code pos tag s).dtag = tag := rfl
@[simp] theorem decFail_da (code : ResultCode) (pos : Nat) (tag : Byte) (s : State) : (decFail code pos tag s).da = s.da := rfl
@[simp] theorem decFail_db (code : ResultCode) (pos : Nat) (tag : Byte) (s : State) : (decFail code pos tag s).db = s.db := rfl
@[simp] theorem decFail_dhdr (code : ResultCode) (pos : Nat) (tag : Byte) (s : State) : (decFail code pos tag s).dhdr = s.dhdr := rfl
@[simp] theorem decFail_dcnt (code : ResultCode) (pos : Nat) (tag : Byte) (s : State) : (decFail code pos tag s).dcnt = 0 := rfl
@[simp] theorem decFail_res (code : ResultCode) (pos : Nat) (tag : Byte) (s : State) : (decFail code pos tag s).res = [] := rfl
@[simp] theorem decFail_qType (code : ResultCode) (pos : Nat) (tag : Byte) (s : State) : (decFail code pos tag s).qType = s.qType := rfl
@[simp] theorem decFail_qScale (code : ResultCode) (pos : Nat) (tag : Byte) (s : State) : (decFail code pos tag s).qScale = s.qScale := rfl
@[simp] theorem decFail_walking (code : ResultCode) (pos : Nat) (tag : Byte) (s : State) : (decFail code pos tag s).walking = false := rfl
@[simp] theorem decFail_dOff (code : ResultCode) (pos : Nat) (tag : Byte) (s : State) : (decFail code pos tag s).dOff = 0 := rfl
@[simp] theorem decFail_rc (code : ResultCode) (pos : Nat) (tag : Byte) (s : State) : (decFail code pos tag s).rc = 0 := rfl
@[simp] theorem decFail_pending (code : ResultCode) (pos : Nat) (tag : Byte) (s : State) : (decFail code pos tag s).pending = s.pending := rfl
@[simp] theorem decFail_epoch (code : ResultCode) (pos : Nat) (tag : Byte) (s : State) : (decFail code pos tag s).epoch = s.epoch := rfl

/-! ### decClear (R330 step 0) -/

@[simp] theorem decClear_opId (s : State) : (decClear s).opId = s.opId := rfl
@[simp] theorem decClear_opKind (s : State) : (decClear s).opKind = s.opKind := rfl
@[simp] theorem decClear_opN (s : State) : (decClear s).opN = s.opN := rfl
@[simp] theorem decClear_opExp (s : State) : (decClear s).opExp = s.opExp := rfl
@[simp] theorem decClear_opMantLo (s : State) : (decClear s).opMantLo = s.opMantLo := rfl
@[simp] theorem decClear_opMantHi (s : State) : (decClear s).opMantHi = s.opMantHi := rfl
@[simp] theorem decClear_ope (s : State) : (decClear s).ope = s.ope := rfl
@[simp] theorem decClear_cres (s : State) : (decClear s).cres = s.cres := rfl
@[simp] theorem decClear_estate (s : State) : (decClear s).estate = s.estate := rfl
@[simp] theorem decClear_obuf (s : State) : (decClear s).obuf = s.obuf := rfl
@[simp] theorem decClear_wc (s : State) : (decClear s).wc = s.wc := rfl
@[simp] theorem decClear_ea (s : State) : (decClear s).ea = s.ea := rfl
@[simp] theorem decClear_eb (s : State) : (decClear s).eb = s.eb := rfl
@[simp] theorem decClear_efcnt (s : State) : (decClear s).efcnt = s.efcnt := rfl
@[simp] theorem decClear_ewcnt (s : State) : (decClear s).ewcnt = s.ewcnt := rfl
@[simp] theorem decClear_advLen (s : State) : (decClear s).advLen = s.advLen := rfl
@[simp] theorem decClear_ibuf (s : State) : (decClear s).ibuf = s.ibuf := rfl
@[simp] theorem decClear_ilen (s : State) : (decClear s).ilen = s.ilen := rfl
@[simp] theorem decClear_dstate (s : State) : (decClear s).dstate = s.dstate := rfl
@[simp] theorem decClear_derr (s : State) : (decClear s).derr = s.derr := rfl
@[simp] theorem decClear_dpos (s : State) : (decClear s).dpos = 0 := rfl
@[simp] theorem decClear_dtag (s : State) : (decClear s).dtag = 0 := rfl
@[simp] theorem decClear_da (s : State) : (decClear s).da = 0 := rfl
@[simp] theorem decClear_db (s : State) : (decClear s).db = 0 := rfl
@[simp] theorem decClear_dhdr (s : State) : (decClear s).dhdr = false := rfl
@[simp] theorem decClear_dcnt (s : State) : (decClear s).dcnt = 0 := rfl
@[simp] theorem decClear_res (s : State) : (decClear s).res = [] := rfl
@[simp] theorem decClear_qType (s : State) : (decClear s).qType = s.qType := rfl
@[simp] theorem decClear_qScale (s : State) : (decClear s).qScale = s.qScale := rfl
@[simp] theorem decClear_walking (s : State) : (decClear s).walking = s.walking := rfl
@[simp] theorem decClear_dOff (s : State) : (decClear s).dOff = s.dOff := rfl
@[simp] theorem decClear_rc (s : State) : (decClear s).rc = s.rc := rfl
@[simp] theorem decClear_pending (s : State) : (decClear s).pending = s.pending := rfl
@[simp] theorem decClear_epoch (s : State) : (decClear s).epoch = s.epoch := rfl

/-! ### decFinish (R339) -/

@[simp] theorem decFinish_opId (s : State) : (decFinish s).opId = s.opId := rfl
@[simp] theorem decFinish_opKind (s : State) : (decFinish s).opKind = s.opKind := rfl
@[simp] theorem decFinish_opN (s : State) : (decFinish s).opN = s.opN := rfl
@[simp] theorem decFinish_opExp (s : State) : (decFinish s).opExp = s.opExp := rfl
@[simp] theorem decFinish_opMantLo (s : State) : (decFinish s).opMantLo = s.opMantLo := rfl
@[simp] theorem decFinish_opMantHi (s : State) : (decFinish s).opMantHi = s.opMantHi := rfl
@[simp] theorem decFinish_ope (s : State) : (decFinish s).ope = s.ope := rfl
@[simp] theorem decFinish_cres (s : State) : (decFinish s).cres = .ok := rfl
@[simp] theorem decFinish_estate (s : State) : (decFinish s).estate = s.estate := rfl
@[simp] theorem decFinish_obuf (s : State) : (decFinish s).obuf = s.obuf := rfl
@[simp] theorem decFinish_wc (s : State) : (decFinish s).wc = s.wc := rfl
@[simp] theorem decFinish_ea (s : State) : (decFinish s).ea = s.ea := rfl
@[simp] theorem decFinish_eb (s : State) : (decFinish s).eb = s.eb := rfl
@[simp] theorem decFinish_efcnt (s : State) : (decFinish s).efcnt = s.efcnt := rfl
@[simp] theorem decFinish_ewcnt (s : State) : (decFinish s).ewcnt = s.ewcnt := rfl
@[simp] theorem decFinish_advLen (s : State) : (decFinish s).advLen = s.advLen := rfl
@[simp] theorem decFinish_ibuf (s : State) : (decFinish s).ibuf = s.ibuf := rfl
@[simp] theorem decFinish_ilen (s : State) : (decFinish s).ilen = s.ilen := rfl
@[simp] theorem decFinish_dstate (s : State) : (decFinish s).dstate = .dOk := rfl
@[simp] theorem decFinish_derr (s : State) : (decFinish s).derr = .ok := rfl
@[simp] theorem decFinish_dpos (s : State) : (decFinish s).dpos = BitVec.ofNat 16 (s.rc + 3) := rfl
@[simp] theorem decFinish_dtag (s : State) : (decFinish s).dtag = 0 := rfl
@[simp] theorem decFinish_da (s : State) : (decFinish s).da = s.da := rfl
@[simp] theorem decFinish_db (s : State) : (decFinish s).db = s.db := rfl
@[simp] theorem decFinish_dhdr (s : State) : (decFinish s).dhdr = s.dhdr := rfl
@[simp] theorem decFinish_dcnt (s : State) : (decFinish s).dcnt = s.dcnt := rfl
@[simp] theorem decFinish_res (s : State) : (decFinish s).res = s.res := rfl
@[simp] theorem decFinish_qType (s : State) : (decFinish s).qType = s.qType := rfl
@[simp] theorem decFinish_qScale (s : State) : (decFinish s).qScale = s.qScale := rfl
@[simp] theorem decFinish_walking (s : State) : (decFinish s).walking = false := rfl
@[simp] theorem decFinish_dOff (s : State) : (decFinish s).dOff = 0 := rfl
@[simp] theorem decFinish_rc (s : State) : (decFinish s).rc = 0 := rfl
@[simp] theorem decFinish_pending (s : State) : (decFinish s).pending = s.pending := rfl
@[simp] theorem decFinish_epoch (s : State) : (decFinish s).epoch = s.epoch := rfl

/-! ### encSkip (R263) -/

@[simp] theorem encSkip_opId (code : ResultCode) (s : State) : (encSkip code s).opId = s.opId := rfl
@[simp] theorem encSkip_opKind (code : ResultCode) (s : State) : (encSkip code s).opKind = s.opKind := rfl
@[simp] theorem encSkip_opN (code : ResultCode) (s : State) : (encSkip code s).opN = s.opN := rfl
@[simp] theorem encSkip_opExp (code : ResultCode) (s : State) : (encSkip code s).opExp = s.opExp := rfl
@[simp] theorem encSkip_opMantLo (code : ResultCode) (s : State) : (encSkip code s).opMantLo = s.opMantLo := rfl
@[simp] theorem encSkip_opMantHi (code : ResultCode) (s : State) : (encSkip code s).opMantHi = s.opMantHi := rfl
@[simp] theorem encSkip_ope (code : ResultCode) (s : State) : (encSkip code s).ope = s.ope := rfl
@[simp] theorem encSkip_cres (code : ResultCode) (s : State) : (encSkip code s).cres = code := rfl
@[simp] theorem encSkip_estate (code : ResultCode) (s : State) : (encSkip code s).estate = s.estate := rfl
@[simp] theorem encSkip_obuf (code : ResultCode) (s : State) : (encSkip code s).obuf = s.obuf := rfl
@[simp] theorem encSkip_wc (code : ResultCode) (s : State) : (encSkip code s).wc = s.wc := rfl
@[simp] theorem encSkip_ea (code : ResultCode) (s : State) : (encSkip code s).ea = s.ea := rfl
@[simp] theorem encSkip_eb (code : ResultCode) (s : State) : (encSkip code s).eb = s.eb := rfl
@[simp] theorem encSkip_efcnt (code : ResultCode) (s : State) : (encSkip code s).efcnt = s.efcnt := rfl
@[simp] theorem encSkip_ewcnt (code : ResultCode) (s : State) : (encSkip code s).ewcnt = satInc s.ewcnt := rfl
@[simp] theorem encSkip_advLen (code : ResultCode) (s : State) : (encSkip code s).advLen = s.advLen := rfl
@[simp] theorem encSkip_ibuf (code : ResultCode) (s : State) : (encSkip code s).ibuf = s.ibuf := rfl
@[simp] theorem encSkip_ilen (code : ResultCode) (s : State) : (encSkip code s).ilen = s.ilen := rfl
@[simp] theorem encSkip_dstate (code : ResultCode) (s : State) : (encSkip code s).dstate = s.dstate := rfl
@[simp] theorem encSkip_derr (code : ResultCode) (s : State) : (encSkip code s).derr = s.derr := rfl
@[simp] theorem encSkip_dpos (code : ResultCode) (s : State) : (encSkip code s).dpos = s.dpos := rfl
@[simp] theorem encSkip_dtag (code : ResultCode) (s : State) : (encSkip code s).dtag = s.dtag := rfl
@[simp] theorem encSkip_da (code : ResultCode) (s : State) : (encSkip code s).da = s.da := rfl
@[simp] theorem encSkip_db (code : ResultCode) (s : State) : (encSkip code s).db = s.db := rfl
@[simp] theorem encSkip_dhdr (code : ResultCode) (s : State) : (encSkip code s).dhdr = s.dhdr := rfl
@[simp] theorem encSkip_dcnt (code : ResultCode) (s : State) : (encSkip code s).dcnt = s.dcnt := rfl
@[simp] theorem encSkip_res (code : ResultCode) (s : State) : (encSkip code s).res = s.res := rfl
@[simp] theorem encSkip_qType (code : ResultCode) (s : State) : (encSkip code s).qType = s.qType := rfl
@[simp] theorem encSkip_qScale (code : ResultCode) (s : State) : (encSkip code s).qScale = s.qScale := rfl
@[simp] theorem encSkip_walking (code : ResultCode) (s : State) : (encSkip code s).walking = s.walking := rfl
@[simp] theorem encSkip_dOff (code : ResultCode) (s : State) : (encSkip code s).dOff = s.dOff := rfl
@[simp] theorem encSkip_rc (code : ResultCode) (s : State) : (encSkip code s).rc = s.rc := rfl
@[simp] theorem encSkip_pending (code : ResultCode) (s : State) : (encSkip code s).pending = s.pending := rfl
@[simp] theorem encSkip_epoch (code : ResultCode) (s : State) : (encSkip code s).epoch = s.epoch := rfl

/-! ### encCount (R263) -/

@[simp] theorem encCount_opId (s : State) : (encCount s).opId = s.opId := rfl
@[simp] theorem encCount_opKind (s : State) : (encCount s).opKind = s.opKind := rfl
@[simp] theorem encCount_opN (s : State) : (encCount s).opN = s.opN := rfl
@[simp] theorem encCount_opExp (s : State) : (encCount s).opExp = s.opExp := rfl
@[simp] theorem encCount_opMantLo (s : State) : (encCount s).opMantLo = s.opMantLo := rfl
@[simp] theorem encCount_opMantHi (s : State) : (encCount s).opMantHi = s.opMantHi := rfl
@[simp] theorem encCount_ope (s : State) : (encCount s).ope = s.ope := rfl
@[simp] theorem encCount_cres (s : State) : (encCount s).cres = .ok := rfl
@[simp] theorem encCount_estate (s : State) : (encCount s).estate = s.estate := rfl
@[simp] theorem encCount_obuf (s : State) : (encCount s).obuf = s.obuf := rfl
@[simp] theorem encCount_wc (s : State) : (encCount s).wc = s.wc := rfl
@[simp] theorem encCount_ea (s : State) : (encCount s).ea = s.ea := rfl
@[simp] theorem encCount_eb (s : State) : (encCount s).eb = s.eb := rfl
@[simp] theorem encCount_efcnt (s : State) : (encCount s).efcnt = satInc s.efcnt := rfl
@[simp] theorem encCount_ewcnt (s : State) : (encCount s).ewcnt = s.ewcnt := rfl
@[simp] theorem encCount_advLen (s : State) : (encCount s).advLen = s.advLen := rfl
@[simp] theorem encCount_ibuf (s : State) : (encCount s).ibuf = s.ibuf := rfl
@[simp] theorem encCount_ilen (s : State) : (encCount s).ilen = s.ilen := rfl
@[simp] theorem encCount_dstate (s : State) : (encCount s).dstate = s.dstate := rfl
@[simp] theorem encCount_derr (s : State) : (encCount s).derr = s.derr := rfl
@[simp] theorem encCount_dpos (s : State) : (encCount s).dpos = s.dpos := rfl
@[simp] theorem encCount_dtag (s : State) : (encCount s).dtag = s.dtag := rfl
@[simp] theorem encCount_da (s : State) : (encCount s).da = s.da := rfl
@[simp] theorem encCount_db (s : State) : (encCount s).db = s.db := rfl
@[simp] theorem encCount_dhdr (s : State) : (encCount s).dhdr = s.dhdr := rfl
@[simp] theorem encCount_dcnt (s : State) : (encCount s).dcnt = s.dcnt := rfl
@[simp] theorem encCount_res (s : State) : (encCount s).res = s.res := rfl
@[simp] theorem encCount_qType (s : State) : (encCount s).qType = s.qType := rfl
@[simp] theorem encCount_qScale (s : State) : (encCount s).qScale = s.qScale := rfl
@[simp] theorem encCount_walking (s : State) : (encCount s).walking = s.walking := rfl
@[simp] theorem encCount_dOff (s : State) : (encCount s).dOff = s.dOff := rfl
@[simp] theorem encCount_rc (s : State) : (encCount s).rc = s.rc := rfl
@[simp] theorem encCount_pending (s : State) : (encCount s).pending = s.pending := rfl
@[simp] theorem encCount_epoch (s : State) : (encCount s).epoch = s.epoch := rfl

/-! ### usageError (R401) -/

@[simp] theorem usageError_opId (code : ResultCode) (s : State) : (usageError code s).opId = s.opId := rfl
@[simp] theorem usageError_opKind (code : ResultCode) (s : State) : (usageError code s).opKind = s.opKind := rfl
@[simp] theorem usageError_opN (code : ResultCode) (s : State) : (usageError code s).opN = s.opN := rfl
@[simp] theorem usageError_opExp (code : ResultCode) (s : State) : (usageError code s).opExp = s.opExp := rfl
@[simp] theorem usageError_opMantLo (code : ResultCode) (s : State) : (usageError code s).opMantLo = s.opMantLo := rfl
@[simp] theorem usageError_opMantHi (code : ResultCode) (s : State) : (usageError code s).opMantHi = s.opMantHi := rfl
@[simp] theorem usageError_ope (code : ResultCode) (s : State) : (usageError code s).ope = s.ope := rfl
@[simp] theorem usageError_cres (code : ResultCode) (s : State) : (usageError code s).cres = code := rfl
@[simp] theorem usageError_estate (code : ResultCode) (s : State) : (usageError code s).estate = s.estate := rfl
@[simp] theorem usageError_obuf (code : ResultCode) (s : State) : (usageError code s).obuf = s.obuf := rfl
@[simp] theorem usageError_wc (code : ResultCode) (s : State) : (usageError code s).wc = s.wc := rfl
@[simp] theorem usageError_ea (code : ResultCode) (s : State) : (usageError code s).ea = s.ea := rfl
@[simp] theorem usageError_eb (code : ResultCode) (s : State) : (usageError code s).eb = s.eb := rfl
@[simp] theorem usageError_efcnt (code : ResultCode) (s : State) : (usageError code s).efcnt = s.efcnt := rfl
@[simp] theorem usageError_ewcnt (code : ResultCode) (s : State) : (usageError code s).ewcnt = s.ewcnt := rfl
@[simp] theorem usageError_advLen (code : ResultCode) (s : State) : (usageError code s).advLen = s.advLen := rfl
@[simp] theorem usageError_ibuf (code : ResultCode) (s : State) : (usageError code s).ibuf = s.ibuf := rfl
@[simp] theorem usageError_ilen (code : ResultCode) (s : State) : (usageError code s).ilen = s.ilen := rfl
@[simp] theorem usageError_dstate (code : ResultCode) (s : State) : (usageError code s).dstate = s.dstate := rfl
@[simp] theorem usageError_derr (code : ResultCode) (s : State) : (usageError code s).derr = s.derr := rfl
@[simp] theorem usageError_dpos (code : ResultCode) (s : State) : (usageError code s).dpos = s.dpos := rfl
@[simp] theorem usageError_dtag (code : ResultCode) (s : State) : (usageError code s).dtag = s.dtag := rfl
@[simp] theorem usageError_da (code : ResultCode) (s : State) : (usageError code s).da = s.da := rfl
@[simp] theorem usageError_db (code : ResultCode) (s : State) : (usageError code s).db = s.db := rfl
@[simp] theorem usageError_dhdr (code : ResultCode) (s : State) : (usageError code s).dhdr = s.dhdr := rfl
@[simp] theorem usageError_dcnt (code : ResultCode) (s : State) : (usageError code s).dcnt = s.dcnt := rfl
@[simp] theorem usageError_res (code : ResultCode) (s : State) : (usageError code s).res = s.res := rfl
@[simp] theorem usageError_qType (code : ResultCode) (s : State) : (usageError code s).qType = s.qType := rfl
@[simp] theorem usageError_qScale (code : ResultCode) (s : State) : (usageError code s).qScale = s.qScale := rfl
@[simp] theorem usageError_walking (code : ResultCode) (s : State) : (usageError code s).walking = s.walking := rfl
@[simp] theorem usageError_dOff (code : ResultCode) (s : State) : (usageError code s).dOff = s.dOff := rfl
@[simp] theorem usageError_rc (code : ResultCode) (s : State) : (usageError code s).rc = s.rc := rfl
@[simp] theorem usageError_pending (code : ResultCode) (s : State) : (usageError code s).pending = s.pending := rfl
@[simp] theorem usageError_epoch (code : ResultCode) (s : State) : (usageError code s).epoch = s.epoch := rfl

/-! ### loadOperand (R294) -/

@[simp] theorem loadOperand_opId (o : Operand) (s : State) : (loadOperand o s).opId = o.id := rfl
@[simp] theorem loadOperand_opKind (o : Operand) (s : State) : (loadOperand o s).opKind = o.kind := rfl
@[simp] theorem loadOperand_opN (o : Operand) (s : State) : (loadOperand o s).opN = o.n := rfl
@[simp] theorem loadOperand_opExp (o : Operand) (s : State) : (loadOperand o s).opExp = o.exp := rfl
@[simp] theorem loadOperand_opMantLo (o : Operand) (s : State) : (loadOperand o s).opMantLo = o.mant.setWidth 32 := rfl
@[simp] theorem loadOperand_opMantHi (o : Operand) (s : State) : (loadOperand o s).opMantHi = (o.mant >>> 32).setWidth 32 := rfl
@[simp] theorem loadOperand_ope (o : Operand) (s : State) : (loadOperand o s).ope = o.elems := rfl
@[simp] theorem loadOperand_cres (o : Operand) (s : State) : (loadOperand o s).cres = s.cres := rfl
@[simp] theorem loadOperand_estate (o : Operand) (s : State) : (loadOperand o s).estate = s.estate := rfl
@[simp] theorem loadOperand_obuf (o : Operand) (s : State) : (loadOperand o s).obuf = s.obuf := rfl
@[simp] theorem loadOperand_wc (o : Operand) (s : State) : (loadOperand o s).wc = s.wc := rfl
@[simp] theorem loadOperand_ea (o : Operand) (s : State) : (loadOperand o s).ea = s.ea := rfl
@[simp] theorem loadOperand_eb (o : Operand) (s : State) : (loadOperand o s).eb = s.eb := rfl
@[simp] theorem loadOperand_efcnt (o : Operand) (s : State) : (loadOperand o s).efcnt = s.efcnt := rfl
@[simp] theorem loadOperand_ewcnt (o : Operand) (s : State) : (loadOperand o s).ewcnt = s.ewcnt := rfl
@[simp] theorem loadOperand_advLen (o : Operand) (s : State) : (loadOperand o s).advLen = s.advLen := rfl
@[simp] theorem loadOperand_ibuf (o : Operand) (s : State) : (loadOperand o s).ibuf = s.ibuf := rfl
@[simp] theorem loadOperand_ilen (o : Operand) (s : State) : (loadOperand o s).ilen = s.ilen := rfl
@[simp] theorem loadOperand_dstate (o : Operand) (s : State) : (loadOperand o s).dstate = s.dstate := rfl
@[simp] theorem loadOperand_derr (o : Operand) (s : State) : (loadOperand o s).derr = s.derr := rfl
@[simp] theorem loadOperand_dpos (o : Operand) (s : State) : (loadOperand o s).dpos = s.dpos := rfl
@[simp] theorem loadOperand_dtag (o : Operand) (s : State) : (loadOperand o s).dtag = s.dtag := rfl
@[simp] theorem loadOperand_da (o : Operand) (s : State) : (loadOperand o s).da = s.da := rfl
@[simp] theorem loadOperand_db (o : Operand) (s : State) : (loadOperand o s).db = s.db := rfl
@[simp] theorem loadOperand_dhdr (o : Operand) (s : State) : (loadOperand o s).dhdr = s.dhdr := rfl
@[simp] theorem loadOperand_dcnt (o : Operand) (s : State) : (loadOperand o s).dcnt = s.dcnt := rfl
@[simp] theorem loadOperand_res (o : Operand) (s : State) : (loadOperand o s).res = s.res := rfl
@[simp] theorem loadOperand_qType (o : Operand) (s : State) : (loadOperand o s).qType = s.qType := rfl
@[simp] theorem loadOperand_qScale (o : Operand) (s : State) : (loadOperand o s).qScale = s.qScale := rfl
@[simp] theorem loadOperand_walking (o : Operand) (s : State) : (loadOperand o s).walking = s.walking := rfl
@[simp] theorem loadOperand_dOff (o : Operand) (s : State) : (loadOperand o s).dOff = s.dOff := rfl
@[simp] theorem loadOperand_rc (o : Operand) (s : State) : (loadOperand o s).rc = s.rc := rfl
@[simp] theorem loadOperand_pending (o : Operand) (s : State) : (loadOperand o s).pending = s.pending := rfl
@[simp] theorem loadOperand_epoch (o : Operand) (s : State) : (loadOperand o s).epoch = s.epoch := rfl

/-! ### commandReset (R382) -/

@[simp] theorem commandReset_opId (s : State) : (commandReset s).opId = 0 := rfl
@[simp] theorem commandReset_opKind (s : State) : (commandReset s).opKind = 0 := rfl
@[simp] theorem commandReset_opN (s : State) : (commandReset s).opN = 0 := rfl
@[simp] theorem commandReset_opExp (s : State) : (commandReset s).opExp = 0 := rfl
@[simp] theorem commandReset_opMantLo (s : State) : (commandReset s).opMantLo = 0 := rfl
@[simp] theorem commandReset_opMantHi (s : State) : (commandReset s).opMantHi = 0 := rfl
@[simp] theorem commandReset_ope (s : State) : (commandReset s).ope = #v[0, 0, 0, 0, 0, 0, 0, 0] := rfl
@[simp] theorem commandReset_cres (s : State) : (commandReset s).cres = .ok := rfl
@[simp] theorem commandReset_estate (s : State) : (commandReset s).estate = .eIdle := rfl
@[simp] theorem commandReset_obuf (s : State) : (commandReset s).obuf = s.obuf := rfl
@[simp] theorem commandReset_wc (s : State) : (commandReset s).wc = 0 := rfl
@[simp] theorem commandReset_ea (s : State) : (commandReset s).ea = 0 := rfl
@[simp] theorem commandReset_eb (s : State) : (commandReset s).eb = 0 := rfl
@[simp] theorem commandReset_efcnt (s : State) : (commandReset s).efcnt = 0 := rfl
@[simp] theorem commandReset_ewcnt (s : State) : (commandReset s).ewcnt = 0 := rfl
@[simp] theorem commandReset_advLen (s : State) : (commandReset s).advLen = false := rfl
@[simp] theorem commandReset_ibuf (s : State) : (commandReset s).ibuf = s.ibuf := rfl
@[simp] theorem commandReset_ilen (s : State) : (commandReset s).ilen = 0 := rfl
@[simp] theorem commandReset_dstate (s : State) : (commandReset s).dstate = .dIdle := rfl
@[simp] theorem commandReset_derr (s : State) : (commandReset s).derr = .ok := rfl
@[simp] theorem commandReset_dpos (s : State) : (commandReset s).dpos = 0 := rfl
@[simp] theorem commandReset_dtag (s : State) : (commandReset s).dtag = 0 := rfl
@[simp] theorem commandReset_da (s : State) : (commandReset s).da = 0 := rfl
@[simp] theorem commandReset_db (s : State) : (commandReset s).db = 0 := rfl
@[simp] theorem commandReset_dhdr (s : State) : (commandReset s).dhdr = false := rfl
@[simp] theorem commandReset_dcnt (s : State) : (commandReset s).dcnt = 0 := rfl
@[simp] theorem commandReset_res (s : State) : (commandReset s).res = [] := rfl
@[simp] theorem commandReset_qType (s : State) : (commandReset s).qType = 0 := rfl
@[simp] theorem commandReset_qScale (s : State) : (commandReset s).qScale = 0 := rfl
@[simp] theorem commandReset_walking (s : State) : (commandReset s).walking = false := rfl
@[simp] theorem commandReset_dOff (s : State) : (commandReset s).dOff = 0 := rfl
@[simp] theorem commandReset_rc (s : State) : (commandReset s).rc = 0 := rfl
@[simp] theorem commandReset_pending (s : State) : (commandReset s).pending = s.pending := rfl
@[simp] theorem commandReset_epoch (s : State) : (commandReset s).epoch = s.epoch := rfl

/-! ### powerOn (R450) -/

@[simp] theorem powerOn_opId (s : State) : (powerOn s).opId = 0 := rfl
@[simp] theorem powerOn_opKind (s : State) : (powerOn s).opKind = 0 := rfl
@[simp] theorem powerOn_opN (s : State) : (powerOn s).opN = 0 := rfl
@[simp] theorem powerOn_opExp (s : State) : (powerOn s).opExp = 0 := rfl
@[simp] theorem powerOn_opMantLo (s : State) : (powerOn s).opMantLo = 0 := rfl
@[simp] theorem powerOn_opMantHi (s : State) : (powerOn s).opMantHi = 0 := rfl
@[simp] theorem powerOn_ope (s : State) : (powerOn s).ope = #v[0, 0, 0, 0, 0, 0, 0, 0] := rfl
@[simp] theorem powerOn_cres (s : State) : (powerOn s).cres = .ok := rfl
@[simp] theorem powerOn_estate (s : State) : (powerOn s).estate = .eIdle := rfl
@[simp] theorem powerOn_obuf (s : State) : (powerOn s).obuf = [] := rfl
@[simp] theorem powerOn_wc (s : State) : (powerOn s).wc = 0 := rfl
@[simp] theorem powerOn_ea (s : State) : (powerOn s).ea = 0 := rfl
@[simp] theorem powerOn_eb (s : State) : (powerOn s).eb = 0 := rfl
@[simp] theorem powerOn_efcnt (s : State) : (powerOn s).efcnt = 0 := rfl
@[simp] theorem powerOn_ewcnt (s : State) : (powerOn s).ewcnt = 0 := rfl
@[simp] theorem powerOn_advLen (s : State) : (powerOn s).advLen = false := rfl
@[simp] theorem powerOn_ibuf (s : State) : (powerOn s).ibuf = [] := rfl
@[simp] theorem powerOn_ilen (s : State) : (powerOn s).ilen = 0 := rfl
@[simp] theorem powerOn_dstate (s : State) : (powerOn s).dstate = .dIdle := rfl
@[simp] theorem powerOn_derr (s : State) : (powerOn s).derr = .ok := rfl
@[simp] theorem powerOn_dpos (s : State) : (powerOn s).dpos = 0 := rfl
@[simp] theorem powerOn_dtag (s : State) : (powerOn s).dtag = 0 := rfl
@[simp] theorem powerOn_da (s : State) : (powerOn s).da = 0 := rfl
@[simp] theorem powerOn_db (s : State) : (powerOn s).db = 0 := rfl
@[simp] theorem powerOn_dhdr (s : State) : (powerOn s).dhdr = false := rfl
@[simp] theorem powerOn_dcnt (s : State) : (powerOn s).dcnt = 0 := rfl
@[simp] theorem powerOn_res (s : State) : (powerOn s).res = [] := rfl
@[simp] theorem powerOn_qType (s : State) : (powerOn s).qType = 0 := rfl
@[simp] theorem powerOn_qScale (s : State) : (powerOn s).qScale = 0 := rfl
@[simp] theorem powerOn_walking (s : State) : (powerOn s).walking = false := rfl
@[simp] theorem powerOn_dOff (s : State) : (powerOn s).dOff = 0 := rfl
@[simp] theorem powerOn_rc (s : State) : (powerOn s).rc = 0 := rfl
@[simp] theorem powerOn_pending (s : State) : (powerOn s).pending = s.pending := rfl
@[simp] theorem powerOn_epoch (s : State) : (powerOn s).epoch = s.epoch + 1 := rfl

end Sys2Proof.Machine
end

