-- ==== Sys2Proof/Laws/Table.lean ====
section
/-! SUPPORT. Sorted tables: reading after a write, and the canonical form that every write keeps. -/

namespace Sys2Proof.Machine

variable {β : Type}

@[simp] theorem lookup_nil (a : Nat) : lookup ([] : List (Nat × β)) a = none := rfl

theorem lookup_cons (k : Nat) (v : β) (t : List (Nat × β)) (a : Nat) :
    lookup ((k, v) :: t) a = if k = a then some v else lookup t a := rfl

/-- Read after write, in every table, sorted or not: the key written gives the value, every other key what it gave. -/
theorem lookup_insert (t : List (Nat × β)) (a : Nat) (v : β) (b : Nat) :
    lookup (insert t a v) b = if a = b then some v else lookup t b := by
  induction t with
  | nil => simp [insert, lookup]
  | cons p t ih =>
    obtain ⟨k, w⟩ := p
    by_cases h1 : a < k
    · simp [insert, h1, lookup]
    · by_cases h2 : k = a
      · subst h2
        by_cases h3 : k = b <;> simp [insert, lookup, h3]
      · by_cases h3 : k = b
        · subst h3
          simp [insert, h1, h2, lookup, Ne.symm h2]
        · simp [insert, h1, h2, lookup, h3, ih]

@[simp] theorem lookup_insert_self (t : List (Nat × β)) (a : Nat) (v : β) : lookup (insert t a v) a = some v := by
  simp [lookup_insert]

theorem lookup_insert_of_ne (t : List (Nat × β)) {a b : Nat} (v : β) (h : a ≠ b) :
    lookup (insert t a v) b = lookup t b := by
  simp [lookup_insert, h]

theorem keysRise_cons (size lo k : Nat) (v : β) (t : List (Nat × β)) :
    keysRise size lo ((k, v) :: t) = true ↔ lo ≤ k ∧ k < size ∧ keysRise size (k + 1) t = true := by
  simp [keysRise, and_assoc]

/-- A write inside the table's space keeps its keys rising. -/
theorem keysRise_insert {size lo a : Nat} (v : β) (hlo : lo ≤ a) (ha : a < size) {t : List (Nat × β)}
    (h : keysRise size lo t = true) : keysRise size lo (insert t a v) = true := by
  induction t generalizing lo with
  | nil => simp [insert, keysRise, hlo, ha]
  | cons p t ih =>
    obtain ⟨k, w⟩ := p
    obtain ⟨h1, h2, h3⟩ := (keysRise_cons ..).mp h
    by_cases hk : a < k
    · simp only [insert, hk, if_true, keysRise_cons]
      exact ⟨hlo, ha, by omega, h2, h3⟩
    · by_cases he : k = a
      · subst he
        simp only [insert, hk, if_false, if_true, keysRise_cons]
        exact ⟨h1, h2, h3⟩
      · simp only [insert, hk, he, if_false, keysRise_cons]
        exact ⟨h1, h2, ih (by omega) h3⟩

/-- What an insert lists is the new pair or was listed before. -/
theorem mem_insert {t : List (Nat × β)} {a : Nat} {v : β} {p : Nat × β} (h : p ∈ insert t a v) :
    p = (a, v) ∨ p ∈ t := by
  induction t with
  | nil => simpa [insert] using h
  | cons q t ih =>
    obtain ⟨k, w⟩ := q
    by_cases h1 : a < k
    · simpa [insert, h1] using h
    · by_cases h2 : k = a
      · subst h2
        simp [insert] at h
        rcases h with h | h
        · exact .inl h
        · exact .inr (List.mem_cons_of_mem _ h)
      · simp [insert, h1, h2] at h
        rcases h with h | h
        · exact .inr (by simp [h])
        · rcases ih h with h | h
          · exact .inl h
          · exact .inr (List.mem_cons_of_mem _ h)

/-- A key below the keys of a table is not listed. -/
theorem lookup_of_keysRise {size lo a : Nat} {t : List (Nat × β)} (h : keysRise size lo t = true) (ha : a < lo) :
    lookup t a = none := by
  induction t generalizing lo with
  | nil => rfl
  | cons p t ih =>
    obtain ⟨k, w⟩ := p
    obtain ⟨h1, _, h3⟩ := (keysRise_cons ..).mp h
    rw [lookup_cons, if_neg (by omega)]
    exact ih h3 (by omega)

/-- What a table reads is listed in it. -/
theorem mem_of_lookup {t : List (Nat × β)} {a : Nat} {v : β} (h : lookup t a = some v) : (a, v) ∈ t := by
  induction t with
  | nil => simp at h
  | cons p t ih =>
    obtain ⟨k, w⟩ := p
    rw [lookup_cons] at h
    split at h
    · simp_all
    · exact List.mem_cons_of_mem _ (ih h)

/-- Canonical tables with equal reads are equal: equal memories are equal data. -/
theorem eq_of_lookup_eq {size lo : Nat} {t u : List (Nat × β)} (ht : keysRise size lo t = true)
    (hu : keysRise size lo u = true) (h : ∀ a, lookup t a = lookup u a) : t = u := by
  induction t generalizing lo u with
  | nil =>
    cases u with
    | nil => rfl
    | cons p u =>
      obtain ⟨j, w⟩ := p
      simpa [lookup_cons] using h j
  | cons p t ih =>
    obtain ⟨k, v⟩ := p
    obtain ⟨_, _, ht3⟩ := (keysRise_cons ..).mp ht
    cases u with
    | nil => simpa [lookup_cons] using h k
    | cons q u =>
      obtain ⟨j, w⟩ := q
      obtain ⟨_, _, hu3⟩ := (keysRise_cons ..).mp hu
      have hkj : k = j := by
        rcases Nat.lt_trichotomy k j with hlt | heq | hgt
        · have := h k
          rw [lookup_cons, if_pos rfl, lookup_cons, if_neg (by omega), lookup_of_keysRise hu3 (by omega)] at this
          simp at this
        · exact heq
        · have := h j
          rw [lookup_cons, if_neg (by omega), lookup_cons, if_pos rfl, lookup_of_keysRise ht3 (by omega)] at this
          simp at this
      subst hkj
      have hv : v = w := by simpa [lookup_cons] using h k
      subst hv
      congr 1
      refine ih ht3 hu3 fun a => ?_
      by_cases ha : k = a
      · subst ha
        rw [lookup_of_keysRise ht3 (by omega), lookup_of_keysRise hu3 (by omega)]
      · simpa [lookup_cons, ha] using h a

/-! ### Buffers -/

theorem lookup_bufWrite (size : Nat) (m : Memory) (a : Nat) (v : Byte) (b : Nat) :
    lookup (bufWrite size m a v) b = if a = b ∧ a < size then some v else lookup m b := by
  unfold bufWrite
  split
  · simp_all [lookup_insert]
  · rw [if_neg (by omega)]

/-- A buffer write keeps the canonical form. -/
theorem bufWrite_wf {size : Nat} {m : Memory} (a : Nat) (v : Byte) (h : Memory.wf size m = true) :
    Memory.wf size (bufWrite size m a v) = true := by
  unfold bufWrite
  split
  · exact keysRise_insert v (Nat.zero_le _) (by assumption) h
  · exact h

/-- Storing a slot under a tag keeps the canonical form. -/
theorem insert_wf {r : ResultStore} (tag : Byte) (slot : Slot) (h : ResultStore.wf r = true) :
    ResultStore.wf (insert r tag.toNat slot) = true :=
  keysRise_insert slot (Nat.zero_le _) tag.isLt h

theorem reset_ibuf_wf (size : Nat) : Memory.wf size State.reset.ibuf = true := rfl
theorem reset_obuf_wf (size : Nat) : Memory.wf size State.reset.obuf = true := rfl
theorem reset_res_wf : ResultStore.wf State.reset.res = true := rfl

/-- The bytes the host loads keep the canonical form (R350). -/
theorem loadBytes_wf {C : Params} {m : Memory} (vs : List Byte) (a : Nat) (h : Memory.wf C.ibufSize m = true) :
    Memory.wf C.ibufSize (loadBytes C m a vs) = true := by
  induction vs generalizing m a with
  | nil => exact h
  | cons v vs ih => exact ih _ (bufWrite_wf a v h)

/-- What placing bytes reads as. -/
theorem lookup_writeBytes (vs : List Byte) (m : Memory) (a b : Nat) :
    lookup (writeBytes m a vs) b = if a ≤ b ∧ b < a + vs.length then vs[b - a]? else lookup m b := by
  induction vs generalizing m a with
  | nil =>
    rw [if_neg (by simp)]
    rfl
  | cons v vs ih =>
    rw [writeBytes, ih, lookup_insert]
    by_cases h : a = b
    · subst h
      simp
    · by_cases h2 : a + 1 ≤ b ∧ b < a + 1 + vs.length
      · have h3 : b - a = (b - (a + 1)) + 1 := by omega
        rw [if_pos h2, if_pos (by simp only [List.length_cons]; omega), h3]
        simp
      · rw [if_neg h2, if_neg h, if_neg (by simp only [List.length_cons]; omega)]

/-- Placing a table word keeps the canonical form (log 2). -/
theorem writeBytes_wf {size : Nat} {m : Memory} (vs : List Byte) (a : Nat) (ha : a + vs.length ≤ size)
    (h : Memory.wf size m = true) : Memory.wf size (writeBytes m a vs) = true := by
  induction vs generalizing m a with
  | nil => exact h
  | cons v vs ih =>
    simp only [List.length_cons] at ha
    exact ih (a + 1) (by omega) (keysRise_insert v (Nat.zero_le _) (by omega) h)

end Sys2Proof.Machine
end

