-- ==== Sys2Proof/Laws/Ops.lean ====
section
/-! SUPPORT. The shared operations over the state, each once with everything it does: reading the buffers, the encoder's
emit (R262), storing an entry (R345), and the running checksum (44_checksum.md). -/

namespace Sys2Proof.Machine

/-! ### Reading the buffers -/

theorem ibufByte_congr {s t : State} (hb : t.ibuf = s.ibuf) (he : t.epoch = s.epoch) (a : Nat) :
    ibufByte t a = ibufByte s a := by
  simp only [ibufByte, hb, he]

theorem obufByte_congr {s t : State} (hb : t.obuf = s.obuf) (he : t.epoch = s.epoch) (a : Nat) :
    obufByte t a = obufByte s a := by
  simp only [obufByte, hb, he]

theorem ibufRead_congr {s t : State} (hb : t.ibuf = s.ibuf) (he : t.epoch = s.epoch) (a n : Nat) :
    ibufRead t a n = ibufRead s a n := by
  simp only [ibufRead, ibufByte_congr hb he]

@[simp] theorem ibufRead_length (s : State) (a n : Nat) : (ibufRead s a n).length = n := by
  simp [ibufRead]

@[simp] theorem obufRead_length (s : State) (a n : Nat) : (obufRead s a n).length = n := by
  simp [obufRead]

theorem ibufRead_getElem (s : State) (a n i : Nat) (h : i < (ibufRead s a n).length) :
    (ibufRead s a n)[i] = ibufByte s (a + i) := by
  simp [ibufRead]

theorem obufRead_getElem (s : State) (a n i : Nat) (h : i < (obufRead s a n).length) :
    (obufRead s a n)[i] = obufByte s (a + i) := by
  simp [obufRead]

theorem ibufRead_append (s : State) (a m n : Nat) : ibufRead s a (m + n) = ibufRead s a m ++ ibufRead s (a + m) n := by
  simp [ibufRead, List.range_add, Nat.add_assoc]

theorem obufRead_append (s : State) (a m n : Nat) : obufRead s a (m + n) = obufRead s a m ++ obufRead s (a + m) n := by
  simp [obufRead, List.range_add, Nat.add_assoc]

theorem ibufRead_one (s : State) (a : Nat) : ibufRead s a 1 = [ibufByte s a] := by
  simp [ibufRead]

theorem obufRead_one (s : State) (a : Nat) : obufRead s a 1 = [obufByte s a] := by
  simp [obufRead]

theorem obufRead_zero (s : State) (a : Nat) : obufRead s a 0 = [] := rfl

/-- What two states read the same, byte by byte, they read the same as a whole. -/
theorem ibufRead_ext {s t : State} {a n : Nat} (h : ∀ i, i < n → ibufByte t (a + i) = ibufByte s (a + i)) :
    ibufRead t a n = ibufRead s a n := by
  simp only [ibufRead]
  exact List.map_congr_left fun i hi => h i (List.mem_range.mp hi)

theorem obufRead_ext {s t : State} {a n : Nat} (h : ∀ i, i < n → obufByte t (a + i) = obufByte s (a + i)) :
    obufRead t a n = obufRead s a n := by
  simp only [obufRead]
  exact List.map_congr_left fun i hi => h i (List.mem_range.mp hi)

/-- A part of a read is the part of the bytes read. -/
theorem ibufRead_sub {s : State} {a n : Nat} {bs : List Byte} (h : ibufRead s a n = bs) {k m : Nat} (hk : k + m ≤ n) :
    ibufRead s (a + k) m = (bs.drop k).take m := by
  subst h
  have h1 : n = k + (m + (n - (k + m))) := by omega
  rw [h1, ibufRead_append, ibufRead_append, List.drop_left' (by simp), List.take_left' (by simp)]

/-- One byte of a read. -/
theorem ibufByte_of_read {s : State} {a n : Nat} {bs : List Byte} (h : ibufRead s a n = bs) {k : Nat} (hk : k < n) :
    bs[k]? = some (ibufByte s (a + k)) := by
  subst h
  simp [ibufRead, hk]

/-! ### The running checksum -/

theorem fletcher_append (xs ys : List Byte) : fletcher (xs ++ ys) = ys.foldl fletcherStep (fletcher xs) := by
  simp [fletcher, List.foldl_append]

/-- From any accumulators, `a` gains the sum of the bytes. -/
theorem fletcher_fold_fst (vs : List Byte) (ab : Byte × Byte) :
    (vs.foldl fletcherStep ab).1 = ab.1 + (vs.foldl fletcherStep (0, 0)).1 := by
  induction vs generalizing ab with
  | nil => simp
  | cons v vs ih =>
    rw [List.foldl_cons, List.foldl_cons, ih, ih (fletcherStep (0, 0) v)]
    simp [fletcherStep, BitVec.add_assoc]

/-! ### The encoder's emit -/

/-- `emit` of each byte, everything at once: the bytes stand in OBUF from WC on, WC has moved past them, the checksum has
taken them in, and nothing else has changed. -/
theorem emitAll_eq (C : Params) (vs : List Byte) (s : State) (hfit : s.wc.toNat + vs.length ≤ C.obufSize)
    (hsize : C.obufSize < 65536) :
    ∃ m, emitAll C vs s =
        { s with
          obuf := m
          wc := BitVec.ofNat 16 (s.wc.toNat + vs.length)
          ea := (vs.foldl fletcherStep (s.ea, s.eb)).1
          eb := (vs.foldl fletcherStep (s.ea, s.eb)).2 }
      ∧ (∀ b, lookup m b =
          if s.wc.toNat ≤ b ∧ b < s.wc.toNat + vs.length then vs[b - s.wc.toNat]? else lookup s.obuf b)
      ∧ (Memory.wf C.obufSize s.obuf = true → Memory.wf C.obufSize m = true) := by
  induction vs generalizing s with
  | nil =>
    refine ⟨s.obuf, ?_, fun b => ?_, id⟩
    · simp [emitAll]
    · rw [if_neg (by simp)]
  | cons v vs ih =>
    simp only [List.length_cons] at hfit
    have hwc : (emit C v s).wc.toNat = s.wc.toNat + 1 := by
      rw [emit_wc, BitVec.toNat_add]
      simp
      omega
    obtain ⟨m, h1, h2, h3⟩ := ih (emit C v s) (by omega)
    refine ⟨m, ?_, fun b => ?_, fun hw => h3 (bufWrite_wf _ _ hw)⟩
    · rw [emitAll, h1, hwc]
      simp only [emit, List.length_cons, List.foldl_cons, fletcherStep]
      congr 2
      omega
    · rw [h2, hwc, emit_obuf, lookup_bufWrite, List.length_cons]
      by_cases hb : s.wc.toNat = b
      · subst hb
        rw [if_neg (by omega), if_pos ⟨rfl, by omega⟩, if_pos (by omega)]
        simp
      · by_cases hb2 : s.wc.toNat + 1 ≤ b ∧ b < s.wc.toNat + 1 + vs.length
        · have h4 : b - s.wc.toNat = (b - (s.wc.toNat + 1)) + 1 := by omega
          rw [if_pos hb2, if_pos (by omega), h4]
          simp
        · rw [if_neg hb2, if_neg (by omega), if_neg (by omega)]

/-- What a byte of OBUF reads after some bytes were placed there. -/
theorem obufByte_placed {s t : State} {a : Nat} {vs : List Byte} (he : t.epoch = s.epoch)
    (h : ∀ b, lookup t.obuf b = if a ≤ b ∧ b < a + vs.length then vs[b - a]? else lookup s.obuf b) (b : Nat) :
    obufByte t b = if hb : a ≤ b ∧ b < a + vs.length then vs[b - a]'(by omega) else obufByte s b := by
  unfold obufByte
  rw [h b, he]
  split
  · rename_i hb
    rw [List.getElem?_eq_getElem (by omega)]
    rfl
  · rfl

/-- The bytes placed read back. -/
theorem obufRead_placed {s t : State} {a : Nat} {vs : List Byte} (he : t.epoch = s.epoch)
    (h : ∀ b, lookup t.obuf b = if a ≤ b ∧ b < a + vs.length then vs[b - a]? else lookup s.obuf b) :
    obufRead t a vs.length = vs := by
  apply List.ext_getElem (by simp)
  intro i h1 h2
  rw [obufRead_getElem, obufByte_placed he h, dif_pos (by omega)]
  congr 1
  omega

/-- Bytes outside the placed ones read as before. -/
theorem obufByte_not_placed {s t : State} {a : Nat} {vs : List Byte} (he : t.epoch = s.epoch)
    (h : ∀ b, lookup t.obuf b = if a ≤ b ∧ b < a + vs.length then vs[b - a]? else lookup s.obuf b) {b : Nat}
    (hb : ¬ (a ≤ b ∧ b < a + vs.length)) : obufByte t b = obufByte s b := by
  rw [obufByte_placed he h, dif_neg hb]

/-! ### The result store -/

theorem resSlot_storeEntry (tag : Byte) (slot : Slot) (n : Nat) (s : State) (id : Nat) :
    resSlot (storeEntry tag slot n s) id = if id = tag.toNat then slot else resSlot s id := by
  simp only [resSlot, storeEntry, lookup_insert]
  by_cases h : tag.toNat = id
  · simp [h]
  · simp [h, Ne.symm h]

theorem resValid_storeEntry (tag : Byte) (slot : Slot) (n : Nat) (s : State) (id : Nat) :
    resValid (storeEntry tag slot n s) id = (decide (id = tag.toNat) || resValid s id) := by
  simp only [resValid, storeEntry, lookup_insert]
  by_cases h : tag.toNat = id
  · simp [h]
  · simp [h, Ne.symm h]

theorem zeroSlot_e (k : Fin 8) : zeroSlot.e[k] = 0 := by
  revert k
  decide

theorem noResults_of_nil {t : State} (h : t.res = []) : NoResults t := by
  intro id
  simp only [resValid, resSlot, h, lookup_nil]
  exact ⟨rfl, rfl, zeroSlot_e⟩

@[simp] theorem slotOfElems_n (es : List Word) : (slotOfElems es).n = BitVec.ofNat 4 es.length := rfl

/-- A slot made of at most eight elements reads as them, then zeros. -/
theorem slotOfElems_e (es : List Word) (k : Fin 8) : (slotOfElems es).e[k] = es.getD k.val 0 := by
  match k with
  | ⟨0, _⟩ => rfl
  | ⟨1, _⟩ => rfl
  | ⟨2, _⟩ => rfl
  | ⟨3, _⟩ => rfl
  | ⟨4, _⟩ => rfl
  | ⟨5, _⟩ => rfl
  | ⟨6, _⟩ => rfl
  | ⟨7, _⟩ => rfl

theorem satInc_toNat (x : Half) : (satInc x).toNat = min (x.toNat + 1) 65535 := by
  simp only [satInc, BitVec.toNat_ofNat]
  omega

/-- Every decode error ends alike (R410). -/
theorem decFail_spec (code : ResultCode) (pos : Nat) (tag : Byte) (s : State) (hpos : pos < 65536) :
    DecodeFailed code pos tag (decFail code pos tag s) :=
  ⟨noResults_of_nil rfl, rfl, rfl, rfl, by simpa using Nat.mod_eq_of_lt hpos, rfl, rfl⟩

end Sys2Proof.Machine
end

