-- ==== Sys2Proof/Laws/Decoder.lean ====
section
/-! SUPPORT. The decoder (45_decoder.md): its start, one turn of its loop, its end, each once with everything it can do; what
the loop keeps, that it ends, and what it does over a list of entries. -/

namespace Sys2Proof.Machine

/-- What no decoder operation changes (R330): operands, encoder, input, registry answers, and what is outside the block. -/
structure DecOnly (s t : State) : Prop where
  operands : SameOperands s t
  encRegs : SameEncRegs s t
  obuf : t.obuf = s.obuf
  ibuf : t.ibuf = s.ibuf
  ilen : t.ilen = s.ilen
  queries : SameQueries s t
  outside : SameOutside s t

theorem DecOnly.refl (s : State) : DecOnly s s :=
  ⟨⟨rfl, rfl, rfl, rfl, rfl, rfl, rfl⟩, ⟨rfl, rfl, rfl, rfl, rfl, rfl, rfl⟩, rfl, rfl, rfl, ⟨rfl, rfl⟩, ⟨rfl, rfl⟩⟩

/-- Writing the decoder's own fields and CRES changes nothing else. -/
theorem decOnly_update (s : State) (res : ResultStore) (dcnt dpos : Half) (dstate : DState) (derr cres : ResultCode)
    (dtag da db : Byte) (dhdr walking : Bool) (dOff rc : Nat) :
    DecOnly s { s with
      res := res, dcnt := dcnt, dpos := dpos, dstate := dstate, derr := derr, cres := cres, dtag := dtag, da := da, db := db
      dhdr := dhdr, walking := walking, dOff := dOff, rc := rc } :=
  ⟨⟨rfl, rfl, rfl, rfl, rfl, rfl, rfl⟩, ⟨rfl, rfl, rfl, rfl, rfl, rfl, rfl⟩, rfl, rfl, rfl, ⟨rfl, rfl⟩, ⟨rfl, rfl⟩⟩

theorem DecOnly.trans {s t u : State} (h : DecOnly s t) (h' : DecOnly t u) : DecOnly s u := by
  obtain ⟨⟨a1, a2, a3, a4, a5, a6, a7⟩, ⟨b1, b2, b3, b4, b5, b6, b7⟩, c, d, e, ⟨f1, f2⟩, ⟨g1, g2⟩⟩ := h
  obtain ⟨⟨a1', a2', a3', a4', a5', a6', a7'⟩, ⟨b1', b2', b3', b4', b5', b6', b7'⟩, c', d', e', ⟨f1', f2'⟩, ⟨g1', g2'⟩⟩ := h'
  exact ⟨⟨a1'.trans a1, a2'.trans a2, a3'.trans a3, a4'.trans a4, a5'.trans a5, a6'.trans a6, a7'.trans a7⟩,
    ⟨b1'.trans b1, b2'.trans b2, b3'.trans b3, b4'.trans b4, b5'.trans b5, b6'.trans b6, b7'.trans b7⟩,
    c'.trans c, d'.trans d, e'.trans e, ⟨f1'.trans f1, f2'.trans f2⟩, ⟨g1'.trans g1, g2'.trans g2⟩⟩

theorem DecOnly.byte {s t : State} (h : DecOnly s t) (a : Nat) : ibufByte t a = ibufByte s a :=
  ibufByte_congr h.ibuf h.outside.2 a

theorem DecOnly.read {s t : State} (h : DecOnly s t) (a n : Nat) : ibufRead t a n = ibufRead s a n :=
  ibufRead_congr h.ibuf h.outside.2 a n

/-- With the walk at rest, the frame of DEC_RUN. -/
theorem DecOnly.frame {s t : State} (h : DecOnly s t) (hw : t.walking = false) (ho : t.dOff = 0) (hr : t.rc = 0) :
    DecRunFrame s t :=
  ⟨h.operands, ⟨h.encRegs, fun a => obufByte_congr h.obuf h.outside.2 a⟩, ⟨h.ilen, h.byte⟩, h.queries, h.outside, hw, ho, hr⟩

theorem decOnly_decFail (code : ResultCode) (pos : Nat) (tag : Byte) (s : State) : DecOnly s (decFail code pos tag s) :=
  decOnly_update s _ _ _ _ _ _ _ _ _ _ _ _ _

theorem decOnly_decFinish (s : State) : DecOnly s (decFinish s) :=
  decOnly_update s _ _ _ _ _ _ _ _ _ _ _ _ _

theorem decOnly_storeEntry (tag : Byte) (slot : Slot) (n : Nat) (s : State) : DecOnly s (storeEntry tag slot n s) :=
  decOnly_update s _ _ _ _ _ _ _ _ _ _ _ _ _

/-! ### The start -/

/-- Everything steps 0 to 2 can do (R331, R332). -/
theorem decStart_cases (s : State) :
    (s.ilen = 0 ∧ decStart s = decFail .malformedMessage 0 0 (decClear s))
    ∨ (s.ilen ≠ 0 ∧ ibufByte s 0 = Config.stx
        ∧ decStart s = { decClear s with walking := true, dOff := 0, rc := 1 })
    ∨ (s.ilen ≠ 0 ∧ ibufByte s 0 ≠ Config.stx ∧ (s.ilen.toNat ≤ 5 ∨ ibufByte s 5 ≠ Config.stx)
        ∧ decStart s = decFail .malformedMessage 5 0 { decClear s with dhdr := true })
    ∨ (5 < s.ilen.toNat ∧ ibufByte s 0 ≠ Config.stx ∧ ibufByte s 5 = Config.stx
        ∧ decStart s = { decClear s with dhdr := true, walking := true, dOff := 5, rc := 6 }) := by
  have hi : (decClear s).ilen = s.ilen := rfl
  have hb : ∀ a, ibufByte (decClear s) a = ibufByte s a := fun _ => rfl
  have hb' : ∀ a, ibufByte { decClear s with dhdr := true } a = ibufByte s a := fun _ => rfl
  unfold decStart
  simp only [hi, hb]
  by_cases h0 : s.ilen = 0
  · exact .inl ⟨h0, if_pos h0⟩
  · right
    simp only [if_neg h0]
    have h0' : ¬ s.ilen.toNat ≤ 0 := fun h => h0 (BitVec.eq_of_toNat_eq (by simpa using h))
    by_cases h1 : ibufByte s 0 = Config.stx
    · refine .inl ⟨h0, h1, ?_⟩
      simp only [if_pos h1, decOpen, hi, hb, if_neg h0']
    · right
      simp only [if_neg h1, decOpen, Config.hdrLen]
      by_cases h2 : s.ilen.toNat ≤ 5
      · exact .inl ⟨h0, h1, .inl h2, if_pos h2⟩
      · by_cases h3 : ibufByte s 5 = Config.stx
        · refine .inr ⟨by omega, h1, h3, ?_⟩
          exact (if_neg h2).trans (if_pos h3)
        · refine .inl ⟨h0, h1, .inr h3, ?_⟩
          exact (if_neg h2).trans (if_neg h3)

theorem decOnly_decStart (s : State) : DecOnly s (decStart s) := by
  rcases decStart_cases s with ⟨_, h⟩ | ⟨_, _, h⟩ | ⟨_, _, _, h⟩ | ⟨_, _, _, h⟩ <;> rw [h] <;> exact decOnly_update s _ _ _ _ _ _ _ _ _ _ _ _ _

/-! ### One turn -/

/-- Everything the end of the loop can do (R337, R338, R339). -/
theorem decEnd_cases (s : State) :
    (s.ilen.toNat < s.rc + 3
        ∧ decEnd s = decFail .truncatedMessage (s.rc + 1) 0 { s with da := (spanChecksum s).1, db := (spanChecksum s).2 })
    ∨ (s.rc + 3 ≤ s.ilen.toNat ∧ spanChecksum s = (ibufByte s (s.rc + 1), ibufByte s (s.rc + 2))
        ∧ decEnd s = decFinish { s with da := (spanChecksum s).1, db := (spanChecksum s).2 })
    ∨ (s.rc + 3 ≤ s.ilen.toNat ∧ spanChecksum s ≠ (ibufByte s (s.rc + 1), ibufByte s (s.rc + 2))
        ∧ decEnd s = decFail .checksumMismatch (s.rc + 1) 0 { s with da := (spanChecksum s).1, db := (spanChecksum s).2 }) := by
  unfold decEnd
  by_cases h : s.ilen.toNat < s.rc + 3
  · exact .inl ⟨h, by simp only [if_pos h]⟩
  · right
    by_cases h2 : spanChecksum s = (ibufByte s (s.rc + 1), ibufByte s (s.rc + 2))
    · refine .inl ⟨by omega, h2, ?_⟩
      have h3 : (spanChecksum s).1 = ibufByte s (s.rc + 1) ∧ (spanChecksum s).2 = ibufByte s (s.rc + 2) := by
        rw [h2]
        exact ⟨rfl, rfl⟩
      simp only [if_neg h, if_pos h3]
    · refine .inr ⟨by omega, h2, ?_⟩
      have h3 : ¬ ((spanChecksum s).1 = ibufByte s (s.rc + 1) ∧ (spanChecksum s).2 = ibufByte s (s.rc + 2)) :=
        fun h4 => h2 (Prod.ext h4.1 h4.2)
      simp only [if_neg h, if_neg h3]

theorem decOnly_decEnd (s : State) : DecOnly s (decEnd s) := by
  rcases decEnd_cases s with ⟨_, h⟩ | ⟨_, _, h⟩ | ⟨_, _, h⟩ <;> rw [h] <;> exact decOnly_update s _ _ _ _ _ _ _ _ _ _ _ _ _

theorem decEnd_rest (s : State) : (decEnd s).walking = false ∧ (decEnd s).dOff = 0 ∧ (decEnd s).rc = 0 := by
  rcases decEnd_cases s with ⟨_, h⟩ | ⟨_, _, h⟩ | ⟨_, _, h⟩ <;> rw [h] <;> exact ⟨rfl, rfl, rfl⟩

/-- Everything one turn of the loop can do (R333 to R336). -/
theorem decStep_cases (C : Params) (s : State) :
    (s.ilen.toNat ≤ s.rc ∧ decStep C s = decFail .malformedMessage s.rc 0 s)
    ∨ (s.rc < s.ilen.toNat ∧ ibufByte s s.rc = Config.etx ∧ decStep C s = decEnd s)
    ∨ (s.rc < s.ilen.toNat ∧ ibufByte s s.rc ≠ Config.etx ∧ C.reg (ibufByte s s.rc) = none
        ∧ decStep C s = decFail .unknownField s.rc (ibufByte s s.rc) s)
    ∨ (∃ d, s.rc < s.ilen.toNat ∧ ibufByte s s.rc ≠ Config.etx ∧ C.reg (ibufByte s s.rc) = some d
        ∧ s.ilen.toNat < s.rc + 1 + paylen d.type
        ∧ decStep C s = decFail .truncatedMessage s.rc (ibufByte s s.rc) s)
    ∨ (∃ d, ibufByte s s.rc ≠ Config.etx ∧ C.reg (ibufByte s s.rc) = some d
        ∧ s.rc + 1 + paylen d.type ≤ s.ilen.toNat
        ∧ decStep C s = storeEntry (ibufByte s s.rc) (slotOf d.type (ibufRead s (s.rc + 1) (paylen d.type)))
            (paylen d.type) s) := by
  unfold decStep
  by_cases h : s.ilen.toNat ≤ s.rc
  · exact .inl ⟨h, if_pos h⟩
  · right
    simp only [if_neg h]
    by_cases h2 : ibufByte s s.rc = Config.etx
    · exact .inl ⟨by omega, h2, if_pos h2⟩
    · right
      simp only [if_neg h2]
      cases hd : C.reg (ibufByte s s.rc) with
      | none => exact .inl ⟨by omega, h2, rfl, rfl⟩
      | some d =>
        right
        unfold decRecord
        by_cases h3 : s.ilen.toNat < s.rc + 1 + paylen d.type
        · exact .inl ⟨d, by omega, h2, rfl, h3, if_pos h3⟩
        · exact .inr ⟨d, h2, rfl, by omega, if_neg h3⟩

theorem decOnly_decStep (C : Params) (s : State) : DecOnly s (decStep C s) := by
  rcases decStep_cases C s with ⟨_, h⟩ | ⟨_, _, h⟩ | ⟨_, _, _, h⟩ | ⟨_, _, _, _, _, h⟩ | ⟨_, _, _, _, h⟩ <;> rw [h]
  · exact decOnly_update s _ _ _ _ _ _ _ _ _ _ _ _ _
  · exact decOnly_decEnd s
  all_goals exact decOnly_update s _ _ _ _ _ _ _ _ _ _ _ _ _

/-- A turn that leaves the walk open has moved the cursor forward, inside the input. -/
theorem decStep_advances {C : Params} {s : State} (h : (decStep C s).walking = true) :
    s.rc < (decStep C s).rc ∧ (decStep C s).rc ≤ s.ilen.toNat ∧ (decStep C s).dOff = s.dOff := by
  rcases decStep_cases C s with ⟨_, e⟩ | ⟨_, _, e⟩ | ⟨_, _, _, e⟩ | ⟨_, _, _, _, _, e⟩ | ⟨d, _, _, hlen, e⟩ <;> rw [e] at h ⊢
  · exact absurd h (by simp [decFail])
  · rw [(decEnd_rest s).1] at h
    exact absurd h (by simp)
  · exact absurd h (by simp [decFail])
  · exact absurd h (by simp [decFail])
  · exact ⟨by simp only [storeEntry]; omega, by simp only [storeEntry]; omega, rfl⟩

/-! ### The loop -/

theorem decLoop_of_not_walking (C : Params) {s : State} (h : s.walking = false) (n : Nat) : decLoop C n s = s := by
  cases n with
  | zero => rfl
  | succ n => simp [decLoop, h]

theorem decLoop_succ (C : Params) {s : State} (h : s.walking = true) (n : Nat) :
    decLoop C (n + 1) s = decLoop C n (decStep C s) := by
  simp [decLoop, h]

/-- What every turn keeps, the loop keeps. -/
theorem decLoop_keeps {C : Params} {P : State → Prop} (hstep : ∀ s, P s → s.walking = true → P (decStep C s)) (n : Nat)
    {s : State} (h : P s) : P (decLoop C n s) := by
  induction n generalizing s with
  | zero => exact h
  | succ n ih =>
    by_cases hw : s.walking = true
    · rw [decLoop_succ C hw]
      exact ih (hstep s h hw)
    · rw [decLoop_of_not_walking C (by simpa using hw)]
      exact h

theorem decOnly_decLoop (C : Params) (n : Nat) (s : State) : DecOnly s (decLoop C n s) :=
  decLoop_keeps (P := fun t => DecOnly s t) (fun t h _ => h.trans (decOnly_decStep C t)) n (DecOnly.refl s)

/-- The loop ends: each turn moves the cursor forward, and it never passes ILEN (R336, R351). -/
theorem decLoop_ends (C : Params) (n : Nat) {s : State}
    (h : s.walking = true → s.rc ≤ s.ilen.toNat ∧ s.ilen.toNat < n + s.rc) : (decLoop C n s).walking = false := by
  induction n generalizing s with
  | zero =>
    by_contra hw
    have := h (by simpa [decLoop] using hw)
    omega
  | succ n ih =>
    by_cases hw : s.walking = true
    · rw [decLoop_succ C hw]
      refine ih fun hw' => ?_
      have h1 := decStep_advances hw'
      have h2 := h hw
      rw [(decOnly_decStep C s).ilen]
      omega
    · rw [decLoop_of_not_walking C (by simpa using hw)]
      simpa using hw

theorem decStart_walk {s : State} (h : (decStart s).walking = true) :
    (decStart s).rc ≤ s.ilen.toNat ∧ 1 ≤ (decStart s).rc ∧ (decStart s).dOff < (decStart s).rc := by
  have h0 : s.ilen ≠ 0 → 1 ≤ s.ilen.toNat := fun hne => Nat.one_le_iff_ne_zero.mpr fun hz => hne (BitVec.eq_of_toNat_eq (by simpa using hz))
  rcases decStart_cases s with ⟨_, e⟩ | ⟨h1, _, e⟩ | ⟨_, _, _, e⟩ | ⟨h1, _, _, e⟩ <;> rw [e] at h ⊢
  · exact absurd h (by simp [decFail])
  · exact ⟨h0 h1, le_refl _, Nat.zero_lt_one⟩
  · exact absurd h (by simp [decFail])
  · exact ⟨h1, by simp, by simp⟩

/-- DEC_RUN always ends its walk (R351). -/
theorem decRun_ends (C : Params) (s : State) : (decRun C s).walking = false := by
  refine decLoop_ends C _ fun h => ?_
  have h1 := decStart_walk h
  rw [(decOnly_decStart s).ilen]
  omega

theorem decOnly_decRun (C : Params) (s : State) : DecOnly s (decRun C s) :=
  (decOnly_decStart s).trans (decOnly_decLoop C _ _)

/-- More turns than the walk needs change nothing. -/
theorem decLoop_add_of_ended {C : Params} {n : Nat} {s : State} (h : (decLoop C n s).walking = false) (m : Nat) :
    decLoop C (n + m) s = decLoop C n s := by
  induction n generalizing s with
  | zero =>
    rw [Nat.zero_add]
    exact decLoop_of_not_walking C h m
  | succ n ih =>
    by_cases hw : s.walking = true
    · rw [Nat.succ_add, decLoop_succ C hw, decLoop_succ C hw]
      rw [decLoop_succ C hw] at h
      exact ih h
    · rw [decLoop_of_not_walking C (by simpa using hw), decLoop_of_not_walking C (by simpa using hw)]

/-! ### A list of entries -/

/-- The store after one more entry. -/
theorem entriesStore_eq_foldl (C : Params) (es : List (Byte × List Byte)) :
    entriesStore C es = es.foldl (fun m e => match C.reg e.1 with
      | some d => insert m e.1.toNat (slotOf d.type e.2)
      | none => m) [] := rfl

/-- Counting up to a bound in two ways. -/
theorem saturating_add (a n top : Nat) : min (min (a + 1) top + n) top = min (a + (n + 1)) top := by
  omega

/-- The loop over entries that parse: their slots are stored, they are counted, the cursor stands after them, and nothing
else has changed. -/
theorem decLoop_entries (C : Params) (es : List (Byte × List Byte)) (tail : List Byte) (n : Nat) {s : State}
    (hw : s.walking = true) (hrc : s.rc ≤ s.ilen.toNat) (hes : ∀ e ∈ es, EntryFits C e)
    (hin : ibufRead s s.rc (s.ilen.toNat - s.rc) = entriesBytes es ++ tail) :
    decLoop C (es.length + n) s =
      decLoop C n
        { s with
          res := es.foldl (fun m e => match C.reg e.1 with
            | some d => insert m e.1.toNat (slotOf d.type e.2)
            | none => m) s.res
          dcnt := BitVec.ofNat 16 (min (s.dcnt.toNat + es.length) 65535)
          rc := s.rc + (entriesBytes es).length } := by
  induction es generalizing s with
  | nil =>
    have hd : BitVec.ofNat 16 (min s.dcnt.toNat 65535) = s.dcnt := by
      apply BitVec.eq_of_toNat_eq
      rw [BitVec.toNat_ofNat]
      have := s.dcnt.isLt
      omega
    simp only [List.length_nil, Nat.zero_add, List.foldl_nil, entriesBytes, List.flatMap_nil, Nat.add_zero, hd]
  | cons e es ih =>
    obtain ⟨tag, p⟩ := e
    obtain ⟨hne, d, hd, hp⟩ := hes (tag, p) (by simp)
    have hbytes : entriesBytes ((tag, p) :: es) = tag :: (p ++ entriesBytes es) := by simp [entriesBytes]
    have hlen := congrArg List.length hin
    rw [hbytes] at hin hlen
    simp only [ibufRead_length, List.length_append, List.length_cons] at hlen
    simp only at hp hd hne
    have htag : ibufByte s s.rc = tag := by
      have h1 := ibufByte_of_read hin (k := 0) (by omega)
      simpa using h1.symm
    have hpay : ibufRead s (s.rc + 1) (paylen d.type) = p := by
      have h1 := ibufRead_sub hin (k := 1) (m := paylen d.type) (by omega)
      rw [h1]
      simp [← hp]
    have hrest : ibufRead s (s.rc + 1 + p.length) (s.ilen.toNat - (s.rc + 1 + p.length)) = entriesBytes es ++ tail := by
      have h1 := ibufRead_sub hin (k := 1 + p.length) (m := s.ilen.toNat - (s.rc + 1 + p.length)) (by omega)
      rw [← Nat.add_assoc] at h1
      rw [h1]
      have h2 : (tag :: (p ++ entriesBytes es) ++ tail) = (tag :: p) ++ (entriesBytes es ++ tail) := by simp
      rw [h2, List.drop_left' (by simp only [List.length_cons]; omega), List.take_of_length_le]
      simp only [List.length_append]
      omega
    have hstep : decStep C s = storeEntry tag (slotOf d.type p) p.length s := by
      rcases decStep_cases C s with ⟨h, _⟩ | ⟨_, h, _⟩ | ⟨_, _, h, _⟩ | ⟨d', _, _, h, h', _⟩ | ⟨d', _, h, _, h'⟩
      · omega
      · exact absurd (htag.symm.trans h) hne
      · rw [htag, hd] at h
        exact absurd h (by simp)
      · rw [htag, hd] at h
        obtain rfl := Option.some.inj h
        omega
      · rw [htag, hd] at h
        obtain rfl := Option.some.inj h
        rw [h', htag, hpay, hp]
    rw [List.length_cons, Nat.add_right_comm, decLoop_succ C hw, hstep,
      ih (s := storeEntry tag (slotOf d.type p) p.length s) hw (by simp only [storeEntry]; omega)
        (fun e he => hes e (List.mem_cons_of_mem _ he)) hrest]
    have hcnt : min ((satInc s.dcnt).toNat + es.length) 65535 = min (s.dcnt.toNat + (es.length + 1)) 65535 := by
      rw [satInc_toNat]
      exact saturating_add s.dcnt.toNat es.length 65535
    have hrc' : s.rc + 1 + p.length + (entriesBytes es).length = s.rc + (entriesBytes ((tag, p) :: es)).length := by
      rw [hbytes]
      simp only [List.length_cons, List.length_append]
      omega
    simp only [storeEntry, List.foldl_cons, hd, hcnt, hrc']

/-- A list of entries takes at least one byte each. -/
theorem length_le_entriesBytes (es : List (Byte × List Byte)) : es.length ≤ (entriesBytes es).length := by
  induction es with
  | nil => simp
  | cons e es ih =>
    simp only [entriesBytes, List.flatMap_cons, List.length_append, List.length_cons] at *
    omega

end Sys2Proof.Machine
end

