-- ==== Sys2Proof/Laws/Encoder.lean ====
section
/-! SUPPORT. The encoder's commands (43_encoder.md), each once with everything it can do, and what an open message holds. -/

namespace Sys2Proof.Machine

/-- The bounds of the buffer sizes that a well-formed configuration has (R7, R43). -/
theorem sizes_of_wf {C : Params} (h : C.wf = true) :
    9 ≤ C.ibufSize ∧ C.ibufSize ≤ 4096 ∧ 4 ≤ C.obufSize ∧ C.obufSize ≤ 4096 := by
  simp only [Params.wf, Params.sizesOk, Bool.and_eq_true, decide_eq_true_eq] at h
  omega

/-- Every record of a well-formed configuration is well formed (R146). -/
theorem record_wf_of_wf {C : Params} (h : C.wf = true) {tag : Byte} {d : Record} (hd : C.reg tag = some d) :
    d.wf = true := by
  simp only [Params.wf, Params.recordsOk, Bool.and_eq_true] at h
  have h1 := List.all_eq_true.mp h.1.2 tag (by
    simp only [allTags, List.mem_map, List.mem_range]
    exact ⟨tag.toNat, tag.isLt, by simp⟩)
  rw [hd] at h1
  simpa using h1

/-- ENC_BEGIN (R261). -/
theorem encBegin_eq (C : Params) (s : State) (h : 1 ≤ C.obufSize) :
    encBegin C s =
      { s with
        obuf := insert s.obuf 0 0x02, wc := 1, ea := 2, eb := 2, efcnt := 0, ewcnt := 0, advLen := false
        estate := .eOpen, cres := .ok } := by
  have h0 : 0 < C.obufSize := h
  simp [encBegin, emit, bufWrite, h0]

/-- Everything ENC_FIELD can do (R263, R280). -/
theorem encField_cases (C : Params) (s : State) :
    (s.estate ≠ .eOpen ∧ encField C s = usageError .sequenceError s)
    ∨ (s.estate = .eOpen ∧ C.reg s.opId = none ∧ encField C s = encSkip .unknownField s)
    ∨ (s.estate = .eOpen ∧ (C.reg s.opId).isSome ∧ (s.opId = Config.stx ∨ s.opId = Config.etx)
        ∧ encField C s = encSkip .invalidFieldValue s)
    ∨ (∃ d, s.estate = .eOpen ∧ C.reg s.opId = some d ∧ s.opId ≠ Config.stx ∧ s.opId ≠ Config.etx
        ∧ payloadOf d s = none ∧ encField C s = encSkip .invalidFieldValue s)
    ∨ (∃ d p, s.estate = .eOpen ∧ C.reg s.opId = some d ∧ s.opId ≠ Config.stx ∧ s.opId ≠ Config.etx
        ∧ payloadOf d s = some p ∧ C.obufSize < s.wc.toNat + 1 + p.length + 3
        ∧ encField C s = encSkip .bufferOverflow s)
    ∨ (∃ d p, s.estate = .eOpen ∧ C.reg s.opId = some d ∧ s.opId ≠ Config.stx ∧ s.opId ≠ Config.etx
        ∧ payloadOf d s = some p ∧ s.wc.toNat + 1 + p.length + 3 ≤ C.obufSize
        ∧ encField C s = encCount (emitAll C (s.opId :: p) s)) := by
  unfold encField
  by_cases ho : s.estate = .eOpen
  · right
    rw [if_pos ho]
    cases hd : C.reg s.opId with
    | none => exact .inl ⟨ho, rfl, rfl⟩
    | some d =>
      right
      by_cases hf : s.opId = Config.stx ∨ s.opId = Config.etx
      · exact .inl ⟨ho, rfl, hf, if_pos hf⟩
      · right
        simp only [if_neg hf]
        rw [not_or] at hf
        unfold encRegistered
        cases hp : payloadOf d s with
        | none => exact .inl ⟨d, ho, rfl, hf.1, hf.2, hp, rfl⟩
        | some p =>
          right
          by_cases hfit : C.obufSize < s.wc.toNat + 1 + p.length + 3
          · exact .inl ⟨d, p, ho, rfl, hf.1, hf.2, hp, hfit, if_pos hfit⟩
          · exact .inr ⟨d, p, ho, rfl, hf.1, hf.2, hp, by omega, if_neg hfit⟩
  · exact .inl ⟨ho, if_neg ho⟩

/-- ENC_END with no message open (R284). -/
theorem encEnd_of_not_open {C : Params} {s : State} (h : s.estate ≠ .eOpen) :
    encEnd C s = usageError .sequenceError s :=
  if_neg h

/-- ENC_END with a message open that leaves room for its trailer (R288, R290). -/
theorem encEnd_eq {C : Params} {s : State} (ho : s.estate = .eOpen) (hfit : s.wc.toNat + 3 ≤ C.obufSize)
    (hsize : C.obufSize < 65536) :
    ∃ m, encEnd C s =
        { s with
          obuf := m
          wc := BitVec.ofNat 16 (s.wc.toNat + 3)
          ea := s.ea + 0x03
          eb := s.eb + (s.ea + 0x03)
          advLen := lengthAdvisory (s.wc.toNat + 3)
          estate := .eDone
          cres := .ok }
      ∧ (∀ b, lookup m b =
          if s.wc.toNat ≤ b ∧ b < s.wc.toNat + 3 then [0x03, s.ea + 0x03, s.eb + (s.ea + 0x03)][b - s.wc.toNat]?
          else lookup s.obuf b)
      ∧ (Memory.wf C.obufSize s.obuf = true → Memory.wf C.obufSize m = true) := by
  have h1 : (s.wc + 1).toNat = s.wc.toNat + 1 := by
    rw [BitVec.toNat_add]
    simp
    omega
  have h2 : (s.wc + 1 + 1).toNat = s.wc.toNat + 2 := by
    rw [BitVec.toNat_add, h1]
    simp
    omega
  have h3 : (s.wc + 1 + 1 + 1).toNat = s.wc.toNat + 3 := by
    rw [BitVec.toNat_add, h2]
    simp
    omega
  have h4 : s.wc + 1 + 1 + 1 = BitVec.ofNat 16 (s.wc.toNat + 3) := by
    apply BitVec.eq_of_toNat_eq
    rw [h3, BitVec.toNat_ofNat]
    omega
  refine ⟨(encTrailer C s).obuf, ?_, fun b => ?_, fun hw => ?_⟩
  · have h5 : (encTrailer C s).wc.toNat = s.wc.toNat + 3 := h3
    simp only [encEnd, ho, if_true, h5]
    rw [← h4]
    rfl
  · have h5 : (encTrailer C s).obuf = bufWrite C.obufSize (bufWrite C.obufSize (bufWrite C.obufSize s.obuf s.wc.toNat
        0x03) (s.wc + 1).toNat (s.ea + 0x03)) (s.wc + 1 + 1).toNat (s.eb + (s.ea + 0x03)) := rfl
    rw [h5, h1, h2, lookup_bufWrite, lookup_bufWrite, lookup_bufWrite]
    by_cases hb : s.wc.toNat ≤ b ∧ b < s.wc.toNat + 3
    · rw [if_pos hb]
      have h6 : b = s.wc.toNat ∨ b = s.wc.toNat + 1 ∨ b = s.wc.toNat + 2 := by omega
      rcases h6 with rfl | rfl | rfl
      · rw [if_neg (by omega), if_neg (by omega), if_pos ⟨rfl, by omega⟩]
        simp
      · rw [if_neg (by omega), if_pos ⟨rfl, by omega⟩]
        simp
      · rw [if_pos ⟨rfl, by omega⟩]
        simp
    · rw [if_neg hb, if_neg (by omega), if_neg (by omega), if_neg (by omega)]
  · exact bufWrite_wf _ _ (bufWrite_wf _ _ (bufWrite_wf _ _ hw))

/-! ### Operand tuples -/

/-- `payload_of` reads the operand registers alone (R266). -/
theorem payloadOf_congr {d : Record} {s t : State} (h : SameOperands s t) : payloadOf d t = payloadOf d s := by
  obtain ⟨_, h2, h3, h4, h5, h6, h7⟩ := h
  simp only [payloadOf, opMant, h2, h3, h4, h5, h6, h7]

/-- The payload of a loaded tuple does not depend on the state it was loaded into. -/
theorem payloadOf_loadOperand (d : Record) (o : Operand) (s t : State) :
    payloadOf d (loadOperand o s) = payloadOf d (loadOperand o t) :=
  payloadOf_congr ⟨rfl, rfl, rfl, rfl, rfl, rfl, rfl⟩

/-- ENC_FIELD on a loaded tuple while a message is open, by what the tuple encodes to. -/
theorem encField_loadOperand {C : Params} {s : State} (o : Operand) (ho : s.estate = .eOpen) :
    encField C (loadOperand o s) =
      match acceptedEntry C o with
      | none => encSkip (fieldCode C o) (loadOperand o s)
      | some e =>
        if C.obufSize < s.wc.toNat + 1 + e.2.length + 3 then encSkip .bufferOverflow (loadOperand o s)
        else encCount (emitAll C (e.1 :: e.2) (loadOperand o s)) := by
  have ho' : (loadOperand o s).estate = .eOpen := ho
  unfold encField fieldCode acceptedEntry
  rw [if_pos ho']
  change (match C.reg o.id with | none => _ | some d => _) = _
  cases hd : C.reg o.id with
  | none => rfl
  | some d =>
    simp only [Option.isNone_some, Bool.false_eq_true, if_false]
    change (if o.id = Config.stx ∨ o.id = Config.etx then _ else _) = _
    by_cases hf : o.id = Config.stx ∨ o.id = Config.etx
    · simp only [if_pos hf]
      rfl
    · simp only [if_neg hf]
      unfold encRegistered
      rw [payloadOf_loadOperand d o s State.reset]
      cases payloadOf d (loadOperand o State.reset) with
      | none => rfl
      | some p => rfl

/-- What an open message holds: STX and these bytes, with their checksum, and room for the trailer (R30, R463). -/
structure OpenWith (C : Params) (body : List Byte) (s : State) : Prop where
  isOpen : s.estate = .eOpen
  cursor : s.wc.toNat = 1 + body.length
  bytes : obufRead s 0 (1 + body.length) = Config.stx :: body
  checksum : (s.ea, s.eb) = fletcher (Config.stx :: body)
  room : 1 + body.length + 3 ≤ C.obufSize
  noAdvice : s.advLen = false

theorem encBegin_openWith {C : Params} (s : State) (h : 4 ≤ C.obufSize) : OpenWith C [] (encBegin C s) := by
  rw [encBegin_eq C s (by omega)]
  refine ⟨rfl, rfl, ?_, rfl, by simpa using h, rfl⟩
  simp only [List.length_nil, Nat.add_zero, obufRead_one, obufByte, lookup_insert, if_true, Option.getD_some]

theorem OpenWith.skip {C : Params} {body : List Byte} {s : State} (h : OpenWith C body s) (code : ResultCode)
    (o : Operand) : OpenWith C body (encSkip code (loadOperand o s)) :=
  ⟨h.isOpen, h.cursor, h.bytes, h.checksum, h.room, h.noAdvice⟩

/-- A field that fits appends its entry to the open message. -/
theorem OpenWith.emit {C : Params} {body : List Byte} {s : State} (h : OpenWith C body s) (vs : List Byte) (o : Operand)
    (hfit : s.wc.toNat + vs.length + 3 ≤ C.obufSize) (hsize : C.obufSize < 65536) :
    OpenWith C (body ++ vs) (encCount (emitAll C vs (loadOperand o s))) := by
  obtain ⟨m, h1, h2, -⟩ := emitAll_eq C vs (loadOperand o s) (by
    change s.wc.toNat + vs.length ≤ C.obufSize
    omega) hsize
  have hc := h.cursor
  have hck := h.checksum
  have hwc : (loadOperand o s).wc.toNat = 1 + body.length := hc
  rw [hwc] at h2
  rw [h1]
  refine ⟨h.isOpen, ?_, ?_, ?_, by simp only [List.length_append]; omega, h.noAdvice⟩
  · change (BitVec.ofNat 16 ((loadOperand o s).wc.toNat + vs.length)).toNat = _
    rw [hwc, BitVec.toNat_ofNat, List.length_append]
    omega
  · rw [List.length_append, ← Nat.add_assoc, obufRead_append, ← List.cons_append, Nat.zero_add]
    congr 1
    · rw [← h.bytes]
      refine obufRead_ext fun i hi => ?_
      refine obufByte_not_placed (a := 1 + body.length) (vs := vs) ?_ h2 ?_
      · rfl
      · omega
    · exact obufRead_placed (s := s) rfl h2
  · change ((vs.foldl fletcherStep (s.ea, s.eb)).1, (vs.foldl fletcherStep (s.ea, s.eb)).2) = _
    rw [← List.cons_append, fletcher_append, ← hck]

/-- ENC_END turns an open message into the finished one. -/
theorem OpenWith.finish {C : Params} {body : List Byte} {s : State} (h : OpenWith C body s)
    (hsize : C.obufSize < 65536) :
    (encEnd C s).wc.toNat = body.length + 4
      ∧ obufRead (encEnd C s) 0 (body.length + 4)
        = (Config.stx :: (body ++ [Config.etx]))
          ++ [(fletcher (Config.stx :: (body ++ [Config.etx]))).1, (fletcher (Config.stx :: (body ++ [Config.etx]))).2]
      ∧ (encEnd C s).advLen = decide (340 < body.length + 4)
      ∧ ((encEnd C s).ea, (encEnd C s).eb) = fletcher (Config.stx :: (body ++ [Config.etx])) := by
  have hc := h.cursor
  have hr := h.room
  obtain ⟨m, h1, h2, -⟩ := encEnd_eq h.isOpen (by omega) hsize
  have hck : fletcher (Config.stx :: (body ++ [Config.etx])) = (s.ea + 0x03, s.eb + (s.ea + 0x03)) := by
    rw [← List.cons_append, fletcher_append, ← h.checksum]
    rfl
  rw [hc] at h2
  rw [h1, hck]
  refine ⟨?_, ?_, ?_, rfl⟩
  · change (BitVec.ofNat 16 (s.wc.toNat + 3)).toNat = _
    rw [BitVec.toNat_ofNat]
    omega
  · have h3 : body.length + 4 = (1 + body.length) + 3 := by omega
    rw [h3, obufRead_append, ← List.cons_append, List.append_assoc, Nat.zero_add]
    congr 1
    · rw [← h.bytes]
      refine obufRead_ext fun i hi => ?_
      refine obufByte_not_placed (a := 1 + body.length) (vs := [0x03, s.ea + 0x03, s.eb + (s.ea + 0x03)]) ?_ h2 ?_
      · rfl
      · simp only [List.length_cons, List.length_nil]
        omega
    · exact obufRead_placed (s := s) (vs := [0x03, s.ea + 0x03, s.eb + (s.ea + 0x03)]) rfl h2
  · change decide (340 < s.wc.toNat + 3) = _
    congr 2
    omega

end Sys2Proof.Machine
end

