-- ==== Sys2Proof/Laws/Entries.lean ====
section
/-! SUPPORT. The meaning of every entry but ETX, said once through its form: the slot that the decoder's loop forms from the
entry's payload bytes (R340 to R344) is stored under its tag; and what bytes an entry was read from. -/

namespace Sys2Proof.Machine

/-! ### Slots from payload bytes -/

theorem slotOf_byte (b : Byte) : slotOf (.scalar .one false false) [b] = slotOfElems [b.setWidth 32] := by
  simp only [slotOf, leUint_cons, leUint_nil, Nat.mul_zero, Nat.add_zero]
  rw [BitVec.ofNat_toNat]

theorem slotOf_half (u : Half) : slotOf (.scalar .two false false) (leBytes 2 u.toNat) = slotOfElems [u.setWidth 32] := by
  have h : leUint (leBytes 2 u.toNat) = u.toNat := by
    rw [leUint_leBytes]
    exact Nat.mod_eq_of_lt u.isLt
  simp only [slotOf, h]
  rw [BitVec.ofNat_toNat]

theorem slotOf_word (u : Word) (isFloat : Bool) :
    slotOf (.scalar .four false isFloat) (leBytes 4 u.toNat) = slotOfElems [u] := by
  have h : leUint (leBytes 4 u.toNat) = u.toNat := by
    rw [leUint_leBytes]
    exact Nat.mod_eq_of_lt u.isLt
  simp only [slotOf, h]
  simp

/-- `to_signed` of R11 is the two's complement reading of a bit pattern. -/
theorem toSigned_half (u : Half) : toSigned 2 u.toNat = u.toInt := by
  rw [BitVec.toInt_eq_toNat_cond]
  simp only [toSigned]
  split <;> split <;> omega

theorem toSigned_word (u : Word) : toSigned 4 u.toNat = u.toInt := by
  rw [BitVec.toInt_eq_toNat_cond]
  simp only [toSigned]
  split <;> split <;> omega

theorem slotOf_signedHalf (u : Half) :
    slotOf (.scalar .two true false) (leBytes 2 u.toNat) = slotOfElems [u.signExtend 32] := by
  have h : leUint (leBytes 2 u.toNat) = u.toNat := by
    rw [leUint_leBytes]
    exact Nat.mod_eq_of_lt u.isLt
  simp only [slotOf, h, widthBytes, toSigned_half, BitVec.signExtend]

theorem slotOf_signedWord (u : Word) : slotOf (.scalar .four true false) (leBytes 4 u.toNat) = slotOfElems [u] := by
  have h : leUint (leBytes 4 u.toNat) = u.toNat := by
    rw [leUint_leBytes]
    exact Nat.mod_eq_of_lt u.isLt
  simp only [slotOf, h, widthBytes, toSigned_word]
  simp

theorem slotOf_bytes3 (a b c : Byte) :
    slotOf (.fixedArray .one 3) [a, b, c] = slotOfElems [a.setWidth 32, b.setWidth 32, c.setWidth 32] := by
  simp [slotOf, payloadElem, List.range_succ, widthBytes, BitVec.ofNat_toNat]

theorem slotOf_bytes4 (a b c d : Byte) :
    slotOf (.fixedArray .one 4) [a, b, c, d]
      = slotOfElems [a.setWidth 32, b.setWidth 32, c.setWidth 32, d.setWidth 32] := by
  simp [slotOf, payloadElem, List.range_succ, widthBytes, BitVec.ofNat_toNat]

/-- The first `w` bytes of a longer payload are the bytes of its first item. -/
theorem take_leBytes_append (w v : Nat) (ys : List Byte) : (leBytes w v ++ ys).take w = leBytes w v :=
  List.take_left' (leBytes_length w v)

theorem drop_leBytes_append (w v : Nat) (ys : List Byte) : (leBytes w v ++ ys).drop w = ys :=
  List.drop_left' (leBytes_length w v)

theorem word_of_leBytes (u : Word) : BitVec.ofNat 32 (leUint (leBytes 4 u.toNat)) = u := by
  rw [leUint_leBytes]
  have h : u.toNat % 256 ^ 4 = u.toNat := Nat.mod_eq_of_lt u.isLt
  rw [h]
  simp

theorem slotOf_words3 (a b c : Word) :
    slotOf (.fixedArray .four 3) (leBytes 4 a.toNat ++ leBytes 4 b.toNat ++ leBytes 4 c.toNat) = slotOfElems [a, b, c] := by
  have h0 : payloadElem (leBytes 4 a.toNat ++ leBytes 4 b.toNat ++ leBytes 4 c.toNat) 4 0 = a := by
    rw [payloadElem, List.append_assoc, Nat.zero_mul, List.drop_zero, take_leBytes_append, word_of_leBytes]
  have h1 : payloadElem (leBytes 4 a.toNat ++ leBytes 4 b.toNat ++ leBytes 4 c.toNat) 4 1 = b := by
    rw [payloadElem, List.append_assoc, Nat.one_mul, drop_leBytes_append, take_leBytes_append, word_of_leBytes]
  have h2 : payloadElem (leBytes 4 a.toNat ++ leBytes 4 b.toNat ++ leBytes 4 c.toNat) 4 2 = c := by
    rw [payloadElem, List.append_assoc, show 2 * 4 = 4 + 4 from rfl, ← List.drop_drop, drop_leBytes_append,
      drop_leBytes_append, List.take_of_length_le (by simp), word_of_leBytes]
  simp only [slotOf, widthBytes, show List.range 3 = [0, 1, 2] from rfl, List.map_cons, List.map_nil, h0, h1, h2]

theorem slotOf_dateTime (year : Half) (month day hour minute second : Byte) :
    slotOf .dateTime (leBytes 2 year.toNat ++ [month, day, hour, minute, second])
      = slotOfElems [year.setWidth 32, month.setWidth 32, day.setWidth 32, hour.setWidth 32, minute.setWidth 32,
          second.setWidth 32] := by
  have h : leUint (leBytes 2 year.toNat) = year.toNat := by
    rw [leUint_leBytes]
    exact Nat.mod_eq_of_lt year.isLt
  simp only [slotOf, take_leBytes_append, drop_leBytes_append, h]
  simp [payloadElem, List.range_succ, BitVec.ofNat_toNat]

/-- A slot is formed from as many elements as its type counts (R36). -/
theorem slotOf_eq (ty : FieldType) (p : List Byte) : ∃ es, slotOf ty p = slotOfElems es ∧ es.length = typeCount ty := by
  cases ty with
  | marker => exact ⟨_, rfl, rfl⟩
  | scalar w signed isFloat => cases signed <;> cases isFloat <;> exact ⟨_, rfl, rfl⟩
  | fixedArray ew c => exact ⟨_, rfl, by simp [typeCount]⟩
  | dateTime => exact ⟨_, rfl, rfl⟩

/-- Beyond its elements a slot holds zeros (R36). -/
theorem slotOfElems_zero {es : List Word} {k : Fin 8} (h : es.length ≤ k.val) : (slotOfElems es).e[k] = 0 := by
  rw [slotOfElems_e, List.getD_eq_getElem?_getD, List.getElem?_eq_none h, Option.getD_none]

/-- The count and the zeros of a slot formed by the decoder (R36). -/
theorem slotOf_shape (ty : FieldType) (p : List Byte) (h : typeCount ty < 16) :
    (slotOf ty p).n.toNat = typeCount ty ∧ ∀ k : Fin 8, typeCount ty ≤ k.val → (slotOf ty p).e[k] = 0 := by
  obtain ⟨es, h1, h2⟩ := slotOf_eq ty p
  rw [h1, slotOfElems_n, BitVec.toNat_ofNat, h2]
  exact ⟨Nat.mod_eq_of_lt h, fun k hk => slotOfElems_zero (h2 ▸ hk)⟩

/-- The element count of a well-formed record fits its register (R146). -/
theorem typeCount_le_of_wf {d : Record} (h : d.wf = true) : typeCount d.type ≤ 8 := by
  obtain ⟨name, ty, scale, range⟩ := d
  cases ty with
  | marker => simp [typeCount]
  | scalar w signed isFloat => simp [typeCount]
  | fixedArray ew c =>
    simp only [Record.wf, Bool.and_eq_true, decide_eq_true_eq] at h
    exact h.1.1.2
  | dateTime => simp [typeCount]

/-! ### Every entry but ETX -/

/-- What executing an entry does, for all 69 of them at once (R330 step 3, R336, R340 to R345). -/
theorem exec_entry (i : Instr) (s : State) (hs : i.space = .entry) (he : i ≠ .etx) :
    ∃ tag ty, i.form = some (tag, ty) ∧ encode i = tag :: (encode i).tail ∧ (encode i).tail.length = paylen ty
      ∧ exec i s = .next (storeEntry tag (slotOf ty (encode i).tail) (paylen ty) s) := by
  cases i
  case etx => exact absurd rfl he
  case stx => exact ⟨_, _, rfl, rfl, rfl, rfl⟩
  case userfunc1 => exact ⟨_, _, rfl, rfl, rfl, rfl⟩
  case userfunc2 => exact ⟨_, _, rfl, rfl, rfl, rfl⟩
  case userfunc3 => exact ⟨_, _, rfl, rfl, rfl, rfl⟩
  case userfunc4 => exact ⟨_, _, rfl, rfl, rfl, rfl⟩
  case datetime a b c d e f =>
    refine ⟨_, _, rfl, rfl, rfl, ?_⟩
    simp only [encode, List.tail_cons, slotOf_dateTime]
    rfl
  case geofstat a b c =>
    refine ⟨_, _, rfl, rfl, rfl, ?_⟩
    simp only [encode, List.tail_cons, slotOf_bytes3]
    rfl
  case rbhead a b c d =>
    refine ⟨_, _, rfl, rfl, rfl, ?_⟩
    simp only [encode, List.tail_cons, slotOf_bytes4]
    rfl
  case mofields a b c =>
    refine ⟨_, _, rfl, rfl, rfl, ?_⟩
    simp only [encode, List.tail_cons, slotOf_words3]
    rfl
  case nop => exact absurd hs (by decide)
  case encBegin => exact absurd hs (by decide)
  case encField => exact absurd hs (by decide)
  case encEnd => exact absurd hs (by decide)
  case decRun => exact absurd hs (by decide)
  case regTypeof => exact absurd hs (by decide)
  case regScaleof => exact absurd hs (by decide)
  case reset => exact absurd hs (by decide)
  all_goals
    refine ⟨_, _, rfl, rfl, rfl, ?_⟩
    simp only [encode, List.tail_cons, leBytes_one, slotOf_byte, slotOf_half, slotOf_word, slotOf_signedHalf,
      slotOf_signedWord]
    rfl

end Sys2Proof.Machine
end

