-- ==== Sys2Proof/Laws/Operands.lean ====
section
/-! SUPPORT. What each operand operation of the encoder can answer (43_encoder.md), said once. -/

namespace Sys2Proof.Machine

/-- The exact integer of a decimal, when there is one (R273): over the rationals it is the decimal. -/
theorem exactInteger_eq_some (m x raw : Int) : exactInteger m x = some raw ↔ (raw : ℚ) = (m : ℚ) * (10 : ℚ) ^ x := by
  unfold exactInteger
  split
  case isTrue hx =>
    obtain ⟨n, rfl⟩ := Int.eq_ofNat_of_zero_le hx
    simp only [Option.some.injEq, Int.toNat_natCast, zpow_natCast]
    exact ⟨by rintro rfl; push_cast; rfl, fun h => by exact_mod_cast h.symm⟩
  case isFalse hx =>
    obtain ⟨n, hn⟩ := Int.eq_ofNat_of_zero_le (show 0 ≤ -x by omega)
    obtain rfl : x = -(n : Int) := by omega
    have hp : (10 : ℚ) ^ n ≠ 0 := by positivity
    simp only [neg_neg, Int.toNat_natCast, zpow_neg, zpow_natCast]
    rw [eq_mul_inv_iff_mul_eq₀ hp]
    constructor
    · split
      case isTrue hm =>
        intro h
        obtain rfl := Option.some.inj h
        have h1 := Int.ediv_mul_cancel (Int.dvd_of_emod_eq_zero hm)
        exact_mod_cast h1
      case isFalse => intro h; cases h
    · intro h
      have h1 : raw * 10 ^ n = m := by exact_mod_cast h
      rw [← h1, Int.mul_emod_left]
      simp

/-- R270: the payload of an integer scalar is that of its raw value, when there is one and both range checks pass. -/
theorem intPayload_eq_some (w : Width) (signed : Bool) (scale : Option Int) (range : FieldRange) (m x : Int)
    (p : List Byte) :
    intPayload w signed scale range m x = some p ↔
      ∃ raw, rawOf scale m x = some raw ∧ tmin w signed ≤ raw ∧ raw ≤ tmax w signed ∧ rangeAccepts range raw = true
        ∧ p = leBytesInt (widthBytes w) raw := by
  unfold intPayload
  constructor
  · intro h
    split at h
    · cases h
    · rename_i raw hraw
      split at h
      · cases h
      · rename_i hty
        split at h
        · rename_i hrange
          exact ⟨raw, hraw, by omega, by omega, hrange, (Option.some.inj h).symm⟩
        · cases h
  · rintro ⟨raw, h1, h2, h3, h4, rfl⟩
    rw [h1]
    simp only
    rw [if_neg (by omega), if_pos h4]

/-- R278. -/
theorem arrayPayload_eq_some (ew c n : Nat) (elems : List Word) (p : List Byte) :
    arrayPayload ew c n elems = some p ↔
      n = c ∧ (∀ e ∈ elems.take c, e.toNat < 2 ^ (8 * ew)) ∧ p = (elems.take c).flatMap fun e => leBytes ew e.toNat := by
  unfold arrayPayload
  split
  case isTrue h =>
    simp only [List.all_eq_true, decide_eq_true_eq] at h
    exact ⟨fun hp => ⟨h.1, h.2, (Option.some.inj hp).symm⟩, fun hp => congrArg some hp.2.2.symm⟩
  case isFalse h =>
    simp only [List.all_eq_true, decide_eq_true_eq] at h
    exact ⟨fun hp => (by cases hp), fun hp => absurd ⟨hp.1, hp.2.1⟩ h⟩

/-- R279. -/
theorem dateTimePayload_eq_some (n : Nat) (elems : List Word) (p : List Byte) :
    dateTimePayload n elems = some p ↔
      n = 6 ∧ (elems.getD 0 0).toNat < 65536 ∧ (∀ e ∈ (elems.drop 1).take 5, e.toNat < 256)
        ∧ p = leBytes 2 (elems.getD 0 0).toNat ++ ((elems.drop 1).take 5).map fun e => BitVec.ofNat 8 e.toNat := by
  unfold dateTimePayload
  split
  case isTrue h =>
    simp only [List.all_eq_true, decide_eq_true_eq] at h
    exact ⟨fun hp => ⟨h.1, h.2.1, h.2.2, (Option.some.inj hp).symm⟩, fun hp => congrArg some hp.2.2.2.symm⟩
  case isFalse h =>
    simp only [List.all_eq_true, decide_eq_true_eq] at h
    exact ⟨fun hp => (by cases hp), fun hp => absurd ⟨hp.1, hp.2.1, hp.2.2.1⟩ h⟩

/-- R276: a payload of a raw value has the width of its type. -/
@[simp] theorem leBytesInt_length (w : Nat) (v : Int) : (leBytesInt w v).length = w := by
  simp [leBytesInt]

/-- The bytes of several elements of one width. -/
theorem flatMap_leBytes_length (w : Nat) (es : List Word) :
    (es.flatMap fun e => leBytes w e.toNat).length = w * es.length := by
  induction es with
  | nil => simp
  | cons e es ih =>
    rw [List.flatMap_cons, List.length_append, ih, leBytes_length, List.length_cons]
    ring

end Sys2Proof.Machine
end

