-- ==== Sys2Proof/Laws/PerInstr.lean ====
section
/-! SUPPORT. Statements for all instructions, one lemma per constructor. EntryLength: an instruction's encoding begins with
its tag and is as long as its field type says (R96, R116); a command is one byte (R120). -/

namespace Sys2Proof.Laws

open Sys2Proof Sys2Proof.Machine

/-- The encoding's length, and the tag it begins with, follow from the instruction's form (R96, R120). -/
def EntryLength.Statement (i : Instr) : Prop :=
  match i.form with
  | none => (encode i).length = 1
  | some (tag, ty) => (encode i).head? = some tag ∧ (encode i).length = 1 + paylen ty

theorem EntryLength.stx : EntryLength.Statement .stx := ⟨rfl, rfl⟩
theorem EntryLength.etx : EntryLength.Statement .etx := ⟨rfl, rfl⟩
theorem EntryLength.swver (u : Byte) : EntryLength.Statement (.swver u) := ⟨rfl, rfl⟩
theorem EntryLength.source (u : Word) : EntryLength.Statement (.source u) := ⟨rfl, rfl⟩
theorem EntryLength.battv (u : Half) : EntryLength.Statement (.battv u) := ⟨rfl, rfl⟩
theorem EntryLength.press (u : Half) : EntryLength.Statement (.press u) := ⟨rfl, rfl⟩
theorem EntryLength.temp (u : Half) : EntryLength.Statement (.temp u) := ⟨rfl, rfl⟩
theorem EntryLength.humid (u : Half) : EntryLength.Statement (.humid u) := ⟨rfl, rfl⟩
theorem EntryLength.year (u : Half) : EntryLength.Statement (.year u) := ⟨rfl, rfl⟩
theorem EntryLength.month (u : Byte) : EntryLength.Statement (.month u) := ⟨rfl, rfl⟩
theorem EntryLength.day (u : Byte) : EntryLength.Statement (.day u) := ⟨rfl, rfl⟩
theorem EntryLength.hour (u : Byte) : EntryLength.Statement (.hour u) := ⟨rfl, rfl⟩
theorem EntryLength.min (u : Byte) : EntryLength.Statement (.min u) := ⟨rfl, rfl⟩
theorem EntryLength.sec (u : Byte) : EntryLength.Statement (.sec u) := ⟨rfl, rfl⟩
theorem EntryLength.millis (u : Half) : EntryLength.Statement (.millis u) := ⟨rfl, rfl⟩
theorem EntryLength.datetime (year : Half) (month day hour minute second : Byte) : EntryLength.Statement (.datetime year month day hour minute second) := ⟨rfl, rfl⟩
theorem EntryLength.lat (u : Word) : EntryLength.Statement (.lat u) := ⟨rfl, rfl⟩
theorem EntryLength.lon (u : Word) : EntryLength.Statement (.lon u) := ⟨rfl, rfl⟩
theorem EntryLength.alt (u : Word) : EntryLength.Statement (.alt u) := ⟨rfl, rfl⟩
theorem EntryLength.speed (u : Word) : EntryLength.Statement (.speed u) := ⟨rfl, rfl⟩
theorem EntryLength.head (u : Word) : EntryLength.Statement (.head u) := ⟨rfl, rfl⟩
theorem EntryLength.sats (u : Byte) : EntryLength.Statement (.sats u) := ⟨rfl, rfl⟩
theorem EntryLength.pdop (u : Half) : EntryLength.Statement (.pdop u) := ⟨rfl, rfl⟩
theorem EntryLength.fix (u : Byte) : EntryLength.Statement (.fix u) := ⟨rfl, rfl⟩
theorem EntryLength.geofstat (e0 e1 e2 : Byte) : EntryLength.Statement (.geofstat e0 e1 e2) := ⟨rfl, rfl⟩
theorem EntryLength.userval1 (u : Byte) : EntryLength.Statement (.userval1 u) := ⟨rfl, rfl⟩
theorem EntryLength.userval2 (u : Byte) : EntryLength.Statement (.userval2 u) := ⟨rfl, rfl⟩
theorem EntryLength.userval3 (u : Half) : EntryLength.Statement (.userval3 u) := ⟨rfl, rfl⟩
theorem EntryLength.userval4 (u : Half) : EntryLength.Statement (.userval4 u) := ⟨rfl, rfl⟩
theorem EntryLength.userval5 (u : Word) : EntryLength.Statement (.userval5 u) := ⟨rfl, rfl⟩
theorem EntryLength.userval6 (u : Word) : EntryLength.Statement (.userval6 u) := ⟨rfl, rfl⟩
theorem EntryLength.userval7 (u : Word) : EntryLength.Statement (.userval7 u) := ⟨rfl, rfl⟩
theorem EntryLength.userval8 (u : Word) : EntryLength.Statement (.userval8 u) := ⟨rfl, rfl⟩
theorem EntryLength.mofields (e0 e1 e2 : Word) : EntryLength.Statement (.mofields e0 e1 e2) := ⟨rfl, rfl⟩
theorem EntryLength.flags1 (u : Byte) : EntryLength.Statement (.flags1 u) := ⟨rfl, rfl⟩
theorem EntryLength.flags2 (u : Byte) : EntryLength.Statement (.flags2 u) := ⟨rfl, rfl⟩
theorem EntryLength.dest (u : Word) : EntryLength.Statement (.dest u) := ⟨rfl, rfl⟩
theorem EntryLength.hipress (u : Half) : EntryLength.Statement (.hipress u) := ⟨rfl, rfl⟩
theorem EntryLength.lopress (u : Half) : EntryLength.Statement (.lopress u) := ⟨rfl, rfl⟩
theorem EntryLength.hitemp (u : Half) : EntryLength.Statement (.hitemp u) := ⟨rfl, rfl⟩
theorem EntryLength.lotemp (u : Half) : EntryLength.Statement (.lotemp u) := ⟨rfl, rfl⟩
theorem EntryLength.hihumid (u : Half) : EntryLength.Statement (.hihumid u) := ⟨rfl, rfl⟩
theorem EntryLength.lohumid (u : Half) : EntryLength.Statement (.lohumid u) := ⟨rfl, rfl⟩
theorem EntryLength.geofnum (u : Byte) : EntryLength.Statement (.geofnum u) := ⟨rfl, rfl⟩
theorem EntryLength.geof1lat (u : Word) : EntryLength.Statement (.geof1lat u) := ⟨rfl, rfl⟩
theorem EntryLength.geof1lon (u : Word) : EntryLength.Statement (.geof1lon u) := ⟨rfl, rfl⟩
theorem EntryLength.geof1rad (u : Word) : EntryLength.Statement (.geof1rad u) := ⟨rfl, rfl⟩
theorem EntryLength.geof2lat (u : Word) : EntryLength.Statement (.geof2lat u) := ⟨rfl, rfl⟩
theorem EntryLength.geof2lon (u : Word) : EntryLength.Statement (.geof2lon u) := ⟨rfl, rfl⟩
theorem EntryLength.geof2rad (u : Word) : EntryLength.Statement (.geof2rad u) := ⟨rfl, rfl⟩
theorem EntryLength.geof3lat (u : Word) : EntryLength.Statement (.geof3lat u) := ⟨rfl, rfl⟩
theorem EntryLength.geof3lon (u : Word) : EntryLength.Statement (.geof3lon u) := ⟨rfl, rfl⟩
theorem EntryLength.geof3rad (u : Word) : EntryLength.Statement (.geof3rad u) := ⟨rfl, rfl⟩
theorem EntryLength.geof4lat (u : Word) : EntryLength.Statement (.geof4lat u) := ⟨rfl, rfl⟩
theorem EntryLength.geof4lon (u : Word) : EntryLength.Statement (.geof4lon u) := ⟨rfl, rfl⟩
theorem EntryLength.geof4rad (u : Word) : EntryLength.Statement (.geof4rad u) := ⟨rfl, rfl⟩
theorem EntryLength.wakeint (u : Half) : EntryLength.Statement (.wakeint u) := ⟨rfl, rfl⟩
theorem EntryLength.alarmint (u : Half) : EntryLength.Statement (.alarmint u) := ⟨rfl, rfl⟩
theorem EntryLength.txint (u : Half) : EntryLength.Statement (.txint u) := ⟨rfl, rfl⟩
theorem EntryLength.lowbatt (u : Half) : EntryLength.Statement (.lowbatt u) := ⟨rfl, rfl⟩
theorem EntryLength.dynmodel (u : Byte) : EntryLength.Statement (.dynmodel u) := ⟨rfl, rfl⟩
theorem EntryLength.rbhead (e0 e1 e2 e3 : Byte) : EntryLength.Statement (.rbhead e0 e1 e2 e3) := ⟨rfl, rfl⟩
theorem EntryLength.userfunc1 : EntryLength.Statement .userfunc1 := ⟨rfl, rfl⟩
theorem EntryLength.userfunc2 : EntryLength.Statement .userfunc2 := ⟨rfl, rfl⟩
theorem EntryLength.userfunc3 : EntryLength.Statement .userfunc3 := ⟨rfl, rfl⟩
theorem EntryLength.userfunc4 : EntryLength.Statement .userfunc4 := ⟨rfl, rfl⟩
theorem EntryLength.userfunc5 (u : Half) : EntryLength.Statement (.userfunc5 u) := ⟨rfl, rfl⟩
theorem EntryLength.userfunc6 (u : Half) : EntryLength.Statement (.userfunc6 u) := ⟨rfl, rfl⟩
theorem EntryLength.userfunc7 (u : Word) : EntryLength.Statement (.userfunc7 u) := ⟨rfl, rfl⟩
theorem EntryLength.userfunc8 (u : Word) : EntryLength.Statement (.userfunc8 u) := ⟨rfl, rfl⟩
theorem EntryLength.nop : EntryLength.Statement .nop := rfl
theorem EntryLength.encBegin : EntryLength.Statement .encBegin := rfl
theorem EntryLength.encField : EntryLength.Statement .encField := rfl
theorem EntryLength.encEnd : EntryLength.Statement .encEnd := rfl
theorem EntryLength.decRun : EntryLength.Statement .decRun := rfl
theorem EntryLength.regTypeof : EntryLength.Statement .regTypeof := rfl
theorem EntryLength.regScaleof : EntryLength.Statement .regScaleof := rfl
theorem EntryLength.reset : EntryLength.Statement .reset := rfl

end Sys2Proof.Laws
end

