-- ==== Sys2Proof/Tests/Slice0.lean ====
section
/-! SUPPORT. The model's own tests. Expected values are the spec's: the examples of the per-tag rules, of the commands' rules and
the vectors of 95_test_vectors.md; the decode words are the spec's own bytes. Then, for every statement with hypotheses, a
concrete state or operand that meets them (`witness_<statement>`). -/

namespace Sys2Proof.Tests

open Sys2Proof Sys2Proof.Machine

/-! ## Helpers -/

/-- The state an outcome ends in; the state after reset when it stops. -/
def after : Host.Outcome State Fault Refusal → State
  | .next t => t
  | _ => State.reset

/-- The reset state with these bytes at the start of IBUF and ILEN set to their number. -/
def loaded (bytes : List Byte) : State :=
  { State.reset with ibuf := bytes.zipIdx.map fun p => (p.2, p.1), ilen := BitVec.ofNat 16 bytes.length }

/-- The state inside a DEC_RUN on these bytes, STX at offset 0, the cursor at `rc`. -/
def walkingAt (rc : Nat) (bytes : List Byte) : State :=
  { loaded bytes with walking := true, dOff := 0, rc := rc }

/-- The reset state with one host access to come. -/
def with1 (a : HostAccess) : State :=
  { State.reset with pending := [a] }

/-- An open message that stands as ENC_BEGIN leaves it. -/
def opened : State :=
  { State.reset with estate := .eOpen, obuf := [(0, 0x02)], wc := 1, ea := 2, eb := 2 }

def elemsVec (es : List Word) : Vector Word 8 :=
  #v[es.getD 0 0, es.getD 1 0, es.getD 2 0, es.getD 3 0, es.getD 4 0, es.getD 5 0, es.getD 6 0, es.getD 7 0]

def noneOp (id : Byte) : Operand :=
  { id := id, kind := 0, mant := 0, exp := 0, n := 0, elems := elemsVec [] }

def intOp (id : Byte) (m : Int) : Operand :=
  { noneOp id with kind := 1, mant := BitVec.ofInt 64 m }

def decOp (id : Byte) (m : Int) (e : Int) : Operand :=
  { noneOp id with kind := 2, mant := BitVec.ofInt 64 m, exp := BitVec.ofInt 8 e }

def f32Op (id : Byte) (bits : Word) : Operand :=
  { noneOp id with kind := 3, mant := bits.setWidth 64 }

def elemsOp (id : Byte) (es : List Word) : Operand :=
  { noneOp id with kind := 4, n := BitVec.ofNat 4 es.length, elems := elemsVec es }

/-- The default parameters with one record replaced. -/
def withRecord (tag : Byte) (r : Option Record) : Params :=
  { defaultParams with reg := fun t => if t = tag then r else defaultParams.reg t }

def recordOf (t : FieldType) (k : Option Int) (r : FieldRange) : Record :=
  { name := "X", type := t, scale := k, range := r }

/-- A FLAGS1 record with an INTERVAL range. -/
def flags1In (lo hi : Int) : Record :=
  { name := "FLAGS1", type := .scalar .one false false, scale := none, range := .interval lo hi }

/-- A two-byte HIPRESS record with this scale and greatest raw value. -/
def hipressTo (k : Option Int) (hi : Int) : Record :=
  { name := "HIPRESS", type := .scalar .two false false, scale := k, range := .interval 5 hi }

/-! ## The ill-formed terms each check refuses -/

/-- R7, R43: buffers too small and too large. -/
theorem test_sizes_refused :
    Params.sizesOk { defaultParams with ibufSize := 8 } = false
      ∧ Params.sizesOk { defaultParams with ibufSize := 4097 } = false
      ∧ Params.sizesOk { defaultParams with obufSize := 3 } = false
      ∧ Params.sizesOk { defaultParams with obufSize := 4097 } = false
      ∧ Params.sizesOk { defaultParams with ibufSize := 9, obufSize := 4 } = true := by
  decide

/-- R145 S1: no STX, ETX under another name, ETX with a payload. -/
theorem test_framing_refused :
    (withRecord 0x02 none).framingOk = false
      ∧ (withRecord 0x03 (some (recordOf .marker none .full))).framingOk = false
      ∧ (withRecord 0x03 (unsignedRecord "ETX" .one)).framingOk = false := by
  decide

/-- R145 S2. -/
theorem test_tag_zero_refused : (withRecord 0x00 (markerRecord "NULL")).zeroOk = false := by
  decide

/-- R145 S3: FLAGS1 missing, of two bytes, scaled, under another name, with a range that refuses 0x20. -/
theorem test_flags1_refused :
    (withRecord 0x31 none).flags1Ok = false
      ∧ (withRecord 0x31 (unsignedRecord "FLAGS1" .two)).flags1Ok = false
      ∧ (withRecord 0x31 (scaledRecord "FLAGS1" .one false (-1))).flags1Ok = false
      ∧ (withRecord 0x31 (unsignedRecord "FLAGS" .one)).flags1Ok = false
      ∧ (withRecord 0x31 (some (flags1In 0 16))).flags1Ok = false
      ∧ (withRecord 0x31 (some (flags1In 0 32))).flags1Ok = true := by
  decide

/-- R145 S4, R97: a tag outside every range. -/
theorem test_tag_range_refused : (withRecord 0x60 (markerRecord "NEW")).rangesOk = false := by
  decide +kernel

/-- R146 (b) to (e), (g): one ill-formed record for each condition. -/
theorem test_records_refused :
    (recordOf .marker (some 0) .full).wf = false
      ∧ (recordOf .marker none (.interval 0 1)).wf = false
      ∧ (recordOf .dateTime (some 0) .full).wf = false
      ∧ (recordOf (.scalar .two false true) none .full).wf = false
      ∧ (recordOf (.scalar .four false true) (some (-2)) .full).wf = false
      ∧ (recordOf (.scalar .one false false) none (.interval 0 256)).wf = false
      ∧ (recordOf (.scalar .one true false) none (.interval (-129) 0)).wf = false
      ∧ (recordOf (.scalar .two false false) none (.interval 5 4)).wf = false
      ∧ (recordOf (.scalar .two false false) none (.nibbles 4 4)).wf = false
      ∧ (recordOf (.scalar .one true false) none (.nibbles 4 4)).wf = false
      ∧ (recordOf (.scalar .one false false) none (.nibbles 16 4)).wf = false
      ∧ (recordOf (.scalar .two false false) (some 128) .full).wf = false
      ∧ (recordOf (.scalar .two false false) (some (-129)) .full).wf = false
      ∧ (recordOf (.fixedArray .one 0) none .full).wf = false
      ∧ (recordOf (.fixedArray .one 9) none .full).wf = false
      ∧ (recordOf (.fixedArray .four 3) (some 0) .full).wf = false
      ∧ (recordOf (.fixedArray .four 8) none .full).wf = true := by
  decide

theorem test_record_in_registry_refused :
    (withRecord 0x04 (some (recordOf .marker (some 0) .full))).recordsOk = false := by
  decide +kernel

/-- R146 (f): two tags with one name. -/
theorem test_names_refused : (withRecord 0x60 (markerRecord "STX")).namesOk = false := by
  decide +kernel

/-- R145 S11, S13: a scaled HIPRESS of raw maximum 1084 (10.84), a HIPRESS up to 1085, no record under 0x52; a HIPRESS whose least
value is another passes. -/
theorem test_facts_refused :
    (withRecord 0x34 (some (hipressTo (some (-2)) 1084))).factsOk = false
      ∧ (withRecord 0x34 (some (hipressTo none 1085))).factsOk = false
      ∧ (withRecord 0x52 none).factsOk = false
      ∧ (withRecord 0x34 (some (hipressTo none 1084))).factsOk = true := by
  decide +kernel

/-- An entry whose tag has another type in the registry, or none. -/
theorem test_instruction_refused :
    Instr.wf (withRecord 0x04 (unsignedRecord "SWVER" .two)) (.swver 0) = false
      ∧ Instr.wf (withRecord 0x04 none) (.swver 0) = false := by
  decide

/-! ## Decoding -/

/-- R120: the eight command codes, and R121: codes beside them. -/
theorem test_decode_commands :
    decodeCommand 0x00 = some .nop ∧ decodeCommand 0x01 = some .encBegin ∧ decodeCommand 0x02 = some .encField
      ∧ decodeCommand 0x03 = some .encEnd ∧ decodeCommand 0x10 = some .decRun ∧ decodeCommand 0x20 = some .regTypeof
      ∧ decodeCommand 0x21 = some .regScaleof ∧ decodeCommand 0xff = some .reset
      ∧ decodeCommand 0x04 = none ∧ decodeCommand 0x22 = none ∧ decodeCommand 0xfe = none := by
  decide

/-- R150, R151: the bare framing bytes; R112: an unregistered tag; R335: a payload that is not all there. -/
theorem test_decode_framing :
    decodeEntry [0x02] = .entry .stx [] ∧ decodeEntry [0x03] = .entry .etx []
      ∧ decodeEntry [0x00] = .unknown 0x00 ∧ decodeEntry [0x60] = .unknown 0x60
      ∧ decodeEntry [0x36, 0x29] = .truncated 0x36 ∧ decodeEntry [] = .empty := by
  decide

/-- The table's words: a tag with zero payload, the five shared values as commands (log 7), an unregistered tag. -/
theorem test_table_words :
    decodeTableWord 8 0x36 = some (.hitemp 0) ∧ decodeTableWord 8 0x14 = some (.datetime 0 0 0 0 0 0)
      ∧ decodeTableWord 8 0x02 = some .encField ∧ decodeTableWord 8 0x21 = some .regScaleof
      ∧ decodeTableWord 8 0x60 = none := by
  decide

/-- What an entry's example says: the bytes decode to the entry and encode from it, ENC_FIELD makes the same bytes of the
human value, and the entry stores these elements. -/
def entryVector (i : Instr) (bytes : List Byte) (o : Operand) (elems : List Word) : Bool :=
  decide (decodeEntry bytes = .entry i []) && decide (encode i = bytes)
    && decide ((acceptedEntry defaultParams o).map (fun e => e.1 :: e.2) = some bytes)
    && decide (((resSlot (after (exec i State.reset)) o.id.toNat).e.toList.take elems.length) = elems)
    && decide ((resSlot (after (exec i State.reset)) o.id.toNat).n.toNat = elems.length)

/-- The examples of R152 to R160: entry bytes, operand value, stored elements. -/
theorem test_entries_framing_and_userfunc :
    entryVector (.rbhead 66 1 2 3) [0x52, 0x42, 0x01, 0x02, 0x03] (elemsOp 0x52 [0x42, 1, 2, 3]) [0x42, 1, 2, 3] = true
      ∧ entryVector .userfunc1 [0x58] (noneOp 0x58) [] = true
      ∧ entryVector .userfunc2 [0x59] (noneOp 0x59) [] = true
      ∧ entryVector .userfunc3 [0x5A] (noneOp 0x5A) [] = true
      ∧ entryVector .userfunc4 [0x5B] (noneOp 0x5B) [] = true
      ∧ entryVector (.userfunc5 0x1234) [0x5C, 0x34, 0x12] (intOp 0x5C 4660) [0x1234] = true
      ∧ entryVector (.userfunc6 1) [0x5D, 0x01, 0x00] (intOp 0x5D 1) [1] = true
      ∧ entryVector (.userfunc7 0x1020304) [0x5E, 0x04, 0x03, 0x02, 0x01] (intOp 0x5E 16909060) [0x1020304] = true
      ∧ entryVector (.userfunc8 0xffffffff) [0x5F, 0xFF, 0xFF, 0xFF, 0xFF]
          (intOp 0x5F 4294967295) [0xffffffff] = true := by
  decide

/-- The examples of R180 to R187: entry bytes, operand value, stored elements. -/
theorem test_entries_telemetry_1 :
    entryVector (.swver 0x12) [0x04, 0x12] (intOp 0x04 18) [0x12] = true
      ∧ entryVector (.source 0x1e240) [0x08, 0x40, 0xE2, 0x01, 0x00] (intOp 0x08 123456) [0x1e240] = true
      ∧ entryVector (.battv 0x1f1) [0x09, 0xF1, 0x01] (decOp 0x09 497 (-2)) [0x1f1] = true
      ∧ entryVector (.press 0x3f5) [0x0A, 0xF5, 0x03] (intOp 0x0A 1013) [0x3f5] = true
      ∧ entryVector (.temp 0xfb2e) [0x0B, 0x2E, 0xFB] (decOp 0x0B (-1234) (-2)) [0xfffffb2e] = true
      ∧ entryVector (.humid 0x11d7) [0x0C, 0xD7, 0x11] (decOp 0x0C 4567 (-2)) [0x11d7] = true
      ∧ entryVector (.year 0x7ea) [0x0D, 0xEA, 0x07] (intOp 0x0D 2026) [0x7ea] = true
      ∧ entryVector (.month 0xb) [0x0E, 0x0B] (intOp 0x0E 11) [0xb] = true := by
  decide

/-- The examples of R188 to R195: entry bytes, operand value, stored elements. -/
theorem test_entries_telemetry_2 :
    entryVector (.day 0xa) [0x0F, 0x0A] (intOp 0x0F 10) [0xa] = true
      ∧ entryVector (.hour 9) [0x10, 0x09] (intOp 0x10 9) [9] = true
      ∧ entryVector (.min 0x1c) [0x11, 0x1C] (intOp 0x11 28) [0x1c] = true
      ∧ entryVector (.sec 0x3b) [0x12, 0x3B] (intOp 0x12 59) [0x3b] = true
      ∧ entryVector (.millis 0x3e7) [0x13, 0xE7, 0x03] (intOp 0x13 999) [0x3e7] = true
      ∧ entryVector (.datetime 2026 11 10 9 28 59) [0x14, 0xEA, 0x07, 0x0B, 0x0A, 0x09, 0x1C, 0x3B]
          (elemsOp 0x14 [0x7ea, 0xb, 0xa, 9, 0x1c, 0x3b]) [0x7ea, 0xb, 0xa, 9, 0x1c, 0x3b] = true
      ∧ entryVector (.lat 0xebd00800) [0x15, 0x00, 0x08, 0xD0, 0xEB] (decOp 0x15 (-338688) (-4)) [0xebd00800] = true
      ∧ entryVector (.lon 0x5a20b548) [0x16, 0x48, 0xB5, 0x20, 0x5A] (decOp 0x16 1512093 (-4)) [0x5a20b548] = true := by
  decide

/-- The examples of R196 to R203: entry bytes, operand value, stored elements. -/
theorem test_entries_telemetry_3 :
    entryVector (.alt 0x1e240) [0x17, 0x40, 0xE2, 0x01, 0x00] (decOp 0x17 123456 (-3)) [0x1e240] = true
      ∧ entryVector (.speed 0x5dc) [0x18, 0xDC, 0x05, 0x00, 0x00] (decOp 0x18 15 (-1)) [0x5dc] = true
      ∧ entryVector (.head 0x35a4e900) [0x19, 0x00, 0xE9, 0xA4, 0x35] (intOp 0x19 90) [0x35a4e900] = true
      ∧ entryVector (.sats 9) [0x1A, 0x09] (intOp 0x1A 9) [9] = true
      ∧ entryVector (.pdop 0x7b) [0x1B, 0x7B, 0x00] (decOp 0x1B 123 (-2)) [0x7b] = true
      ∧ entryVector (.fix 3) [0x1C, 0x03] (intOp 0x1C 3) [3] = true
      ∧ entryVector (.geofstat 4 1 0) [0x1D, 0x04, 0x01, 0x00] (elemsOp 0x1D [4, 1, 0]) [4, 1, 0] = true
      ∧ entryVector (.userval1 0xc8) [0x20, 0xC8] (intOp 0x20 200) [0xc8] = true := by
  decide

/-- The examples of R204 to R210: entry bytes, operand value, stored elements. -/
theorem test_entries_telemetry_4 :
    entryVector (.userval2 0) [0x21, 0x00] (intOp 0x21 0) [0] = true
      ∧ entryVector (.userval3 0xffff) [0x22, 0xFF, 0xFF] (intOp 0x22 65535) [0xffff] = true
      ∧ entryVector (.userval4 0x102) [0x23, 0x02, 0x01] (intOp 0x23 258) [0x102] = true
      ∧ entryVector (.userval5 0x12345678) [0x24, 0x78, 0x56, 0x34, 0x12] (intOp 0x24 305419896) [0x12345678] = true
      ∧ entryVector (.userval6 1) [0x25, 0x01, 0x00, 0x00, 0x00] (intOp 0x25 1) [1] = true
      ∧ entryVector (.userval7 0x3fc00000) [0x26, 0x00, 0x00, 0xC0, 0x3F] (f32Op 0x26 0x3fc00000) [0x3fc00000] = true
      ∧ entryVector (.userval8 0xc0490fdb) [0x27, 0xDB, 0x0F, 0x49, 0xC0] (f32Op 0x27 0xc0490fdb) [0xc0490fdb] = true := by
  decide

/-- The examples of R220 to R226: entry bytes, operand value, stored elements. -/
theorem test_entries_config_1 :
    entryVector (.mofields 251658240 0 1) [0x30, 0x00, 0x00, 0x00, 0x0F, 0x00, 0x00, 0x00, 0x00, 0x01, 0x00, 0x00, 0x00]
          (elemsOp 0x30 [0xf000000, 0, 1]) [0xf000000, 0, 1] = true
      ∧ entryVector (.flags1 0x20) [0x31, 0x20] (intOp 0x31 32) [0x20] = true
      ∧ entryVector (.flags2 0x80) [0x32, 0x80] (intOp 0x32 128) [0x80] = true
      ∧ entryVector (.dest 0x9fbf1) [0x33, 0xF1, 0xFB, 0x09, 0x00] (intOp 0x33 654321) [0x9fbf1] = true
      ∧ entryVector (.hipress 0x3e8) [0x34, 0xE8, 0x03] (intOp 0x34 1000) [0x3e8] = true
      ∧ entryVector (.lopress 0x12c) [0x35, 0x2C, 0x01] (intOp 0x35 300) [0x12c] = true
      ∧ entryVector (.hitemp 0x929) [0x36, 0x29, 0x09] (decOp 0x36 2345 (-2)) [0x929] = true := by
  decide

/-- The examples of R227 to R233: entry bytes, operand value, stored elements. -/
theorem test_entries_config_2 :
    entryVector (.lotemp 0xf060) [0x37, 0x60, 0xF0] (intOp 0x37 (-40)) [0xfffff060] = true
      ∧ entryVector (.hihumid 0x270f) [0x38, 0x0F, 0x27] (decOp 0x38 9999 (-2)) [0x270f] = true
      ∧ entryVector (.lohumid 0x41a) [0x39, 0x1A, 0x04] (decOp 0x39 105 (-1)) [0x41a] = true
      ∧ entryVector (.geofnum 0x23) [0x3A, 0x23] (intOp 0x3A 35) [0x23] = true
      ∧ entryVector (.geof1lat 0x20c85580) [0x3B, 0x80, 0x55, 0xC8, 0x20] (decOp 0x3B 550 (-1)) [0x20c85580] = true
      ∧ entryVector (.geof1lon 0xff1b1e40) [0x3C, 0x40, 0x1E, 0x1B, 0xFF] (decOp 0x3C (-15) (-1)) [0xff1b1e40] = true
      ∧ entryVector (.geof1rad 0x2742) [0x3D, 0x42, 0x27, 0x00, 0x00] (decOp 0x3D 1005 (-1)) [0x2742] = true := by
  decide

/-- The examples of R234 to R240: entry bytes, operand value, stored elements. -/
theorem test_entries_config_3 :
    entryVector (.geof2lat 0x20c85580) [0x3E, 0x80, 0x55, 0xC8, 0x20] (decOp 0x3E 550 (-1)) [0x20c85580] = true
      ∧ entryVector (.geof2lon 0xff1b1e40) [0x3F, 0x40, 0x1E, 0x1B, 0xFF] (decOp 0x3F (-15) (-1)) [0xff1b1e40] = true
      ∧ entryVector (.geof2rad 0x2742) [0x40, 0x42, 0x27, 0x00, 0x00] (decOp 0x40 1005 (-1)) [0x2742] = true
      ∧ entryVector (.geof3lat 0x20c85580) [0x41, 0x80, 0x55, 0xC8, 0x20] (decOp 0x41 550 (-1)) [0x20c85580] = true
      ∧ entryVector (.geof3lon 0xff1b1e40) [0x42, 0x40, 0x1E, 0x1B, 0xFF] (decOp 0x42 (-15) (-1)) [0xff1b1e40] = true
      ∧ entryVector (.geof3rad 0x2742) [0x43, 0x42, 0x27, 0x00, 0x00] (decOp 0x43 1005 (-1)) [0x2742] = true
      ∧ entryVector (.geof4lat 0x20c85580) [0x44, 0x80, 0x55, 0xC8, 0x20] (decOp 0x44 550 (-1)) [0x20c85580] = true := by
  decide

/-- The examples of R241 to R247: entry bytes, operand value, stored elements. -/
theorem test_entries_config_4 :
    entryVector (.geof4lon 0xff1b1e40) [0x45, 0x40, 0x1E, 0x1B, 0xFF] (decOp 0x45 (-15) (-1)) [0xff1b1e40] = true
      ∧ entryVector (.geof4rad 0x2742) [0x46, 0x42, 0x27, 0x00, 0x00] (decOp 0x46 1005 (-1)) [0x2742] = true
      ∧ entryVector (.wakeint 0x3c) [0x47, 0x3C, 0x00] (intOp 0x47 60) [0x3c] = true
      ∧ entryVector (.alarmint 5) [0x48, 0x05, 0x00] (intOp 0x48 5) [5] = true
      ∧ entryVector (.txint 0x5a0) [0x49, 0xA0, 0x05] (intOp 0x49 1440) [0x5a0] = true
      ∧ entryVector (.lowbatt 0x14a) [0x4A, 0x4A, 0x01] (decOp 0x4A 33 (-1)) [0x14a] = true
      ∧ entryVector (.dynmodel 6) [0x4B, 0x06] (intOp 0x4B 6) [6] = true := by
  decide

/-! ## One step -/

/-- STX as an entry (R150): a present marker. -/
theorem test_stx_stores : resValid (after (exec .stx State.reset)) 0x02 = true := by
  decide

/-- R380's example. -/
theorem test_nop : (after (step (with1 (.write 0 0x00)))).cres = .ok := by
  decide

/-- R384's examples: 0x04 is illegal, 0x101 is ENC_BEGIN. -/
theorem test_illegal :
    (after (step (with1 (.write 0 0x04)))).cres = .illegalCommand
      ∧ (after (step (with1 (.write 0 0x101)))).estate = .eOpen := by
  decide

/-- R261's example. -/
theorem test_enc_begin :
    let t := after (exec .encBegin State.reset)
    obufByte t 0 = 0x02 ∧ t.wc = 1 ∧ t.ea = 0x02 ∧ t.eb = 0x02 ∧ t.estate = .eOpen := by
  decide

/-- R263's example: FLAGS1 = 0x20 in a fresh message. -/
theorem test_enc_field :
    let t := after (exec .encField (loadOperand (intOp 0x31 0x20) opened))
    obufRead t 0 3 = [0x02, 0x31, 0x20] ∧ t.wc = 3 ∧ t.efcnt = 1 ∧ t.cres = .ok := by
  decide

/-- R275: HIPRESS = 2000 is outside its range, and the field is skipped. -/
theorem test_enc_field_range :
    let t := after (exec .encField (loadOperand (intOp 0x34 2000) opened))
    t.cres = .invalidFieldValue ∧ t.wc = 1 ∧ t.ewcnt = 1 := by
  decide

/-- R288's example after R263's: `02 31 20 03 56 DE`. -/
theorem test_enc_end :
    let t := after (exec .encEnd (after (exec .encField (loadOperand (intOp 0x31 0x20) opened))))
    obufRead t 0 6 = [0x02, 0x31, 0x20, 0x03, 0x56, 0xDE] ∧ t.wc = 6 ∧ t.estate = .eDone := by
  decide

/-- R418: no message is open. -/
theorem test_enc_end_closed : (after (exec .encEnd State.reset)).cres = .sequenceError := by
  decide

/-- R330's example: `02 31 20 03 56 DE` decodes. -/
theorem test_dec_run :
    let t := after (exec .decRun (loaded [0x02, 0x31, 0x20, 0x03, 0x56, 0xDE]))
    t.dstate = .dOk ∧ t.dpos = 6 ∧ t.da = 0x56 ∧ t.db = 0xDE ∧ (resSlot t 0x31).e[0] = 0x20 := by
  decide

/-- R414: a wrong second checksum byte. -/
theorem test_dec_run_mismatch :
    let t := after (exec .decRun (loaded [0x02, 0x31, 0x20, 0x03, 0x56, 0xDF]))
    t.derr = .checksumMismatch ∧ t.dpos = 4 ∧ resValid t 0x31 = false := by
  decide

/-- ETX under the cursor of the same message. -/
theorem test_etx :
    (after (exec .etx (walkingAt 3 [0x02, 0x31, 0x20, 0x03, 0x56, 0xDE]))).dstate = .dOk := by
  decide

/-- R141's example. -/
theorem test_reg_typeof :
    (after (exec .regTypeof { State.reset with opId := 0x31 })).qType = 0x110A
      ∧ (after (exec .regTypeof State.reset)).cres = .unknownField := by
  decide

/-- R142's examples. -/
theorem test_reg_scaleof :
    (after (exec .regScaleof { State.reset with opId := 0x36 })).qScale = 0x1FE
      ∧ (after (exec .regScaleof { State.reset with opId := 0x31 })).qScale = 0 := by
  decide

/-- R382: RESET keeps the buffers' bytes. -/
theorem test_reset :
    let t := after (exec .reset opened)
    t.wc = 0 ∧ t.estate = .eIdle ∧ obufByte t 0 = 0x02 := by
  decide

/-- R32: ILEN saturates at the buffer's size. -/
theorem test_ilen_saturates : (after (step (with1 (.write 0x0C0 513)))).ilen = 512 := by
  decide

/-- R7: a block with another registry reads its own entries: a tag that REG_DEFAULT lacks, and SWVER with two bytes. -/
theorem test_other_registry :
    let s := walkingAt 1 [0x02, 0x06, 0x34, 0x12]
    let t := after (stepWith (withRecord 0x06 (unsignedRecord "NEW" .two)) s)
    (resSlot t 0x06).e[0] = 0x1234 ∧ t.rc = 4
      ∧ (after (stepWith (withRecord 0x04 (unsignedRecord "SWVER" .two)) (walkingAt 1 [0x02, 0x04, 0x34, 0x12]))).rc = 4
      ∧ (after (step s)).derr = .unknownField := by
  decide

/-- The host's check puts the word of HITEMP where the next step runs it (log 2). -/
theorem test_with_fetch_word :
    resValid (after (step (State.reset.withFetchWord 8 0x36))) 0x36 = true
      ∧ (after (step (State.reset.withFetchWord 8 0x01))).estate = .eOpen := by
  decide

/-! ## Witnesses: what meets the hypotheses of each statement -/

/-- The default parameters pass the configuration check; so do the smallest legal buffers. -/
theorem witness_params :
    defaultParams.wf = true ∧ Params.wf { defaultParams with ibufSize := 9, obufSize := 4 } = true := by
  decide +kernel

theorem witness_DecodedBytesAreTheEncoding :
    decode .entry [0x04, 0x12, 0x03] = some (.swver 0x12, [0x03]) ∧ decode .command [0xff] = some (.reset, []) := by
  decide

/-- The three clauses, the payload one byte short and complete. -/
theorem witness_TagTellsTheEntryLength :
    regDefault 0x60 = none
      ∧ (∃ d, regDefault 0x36 = some d ∧ [(0x29 : Byte)].length < paylen d.type)
      ∧ ∃ d, regDefault 0x36 = some d ∧ ¬ [(0x29 : Byte), 0x09].length < paylen d.type :=
  ⟨by decide, ⟨_, rfl, by decide⟩, ⟨_, rfl, by decide⟩⟩

theorem witness_StepRunsTheDecodedInstruction :
    ((with1 (.write 0 0xff)).walking = false ∧ (with1 (.write 0 0xff)).pending = .write 0 0xff :: []
        ∧ decodeCommand ((0xff : Word).setWidth 8) = some .reset)
      ∧ (walkingAt 1 [0x02, 0x31, 0x20]).walking = true
      ∧ decodeEntry (entryBytes (walkingAt 1 [0x02, 0x31, 0x20])) = .entry (.flags1 0x20) [] := by
  decide

theorem witness_StepIsAtomic : (with1 .powerOn).walking = false := rfl

/-- The state with an open message meets the invariants, and its next access is a step. -/
theorem witness_StepKeepsTheInvariant :
    Inv defaultParams { opened with pending := [.write 0 3] }
      ∧ ChecksumInv { opened with pending := [.write 0 3] }
      ∧ ∃ t, step { opened with pending := [.write 0 3] } = .next t :=
  ⟨⟨by decide, by decide, by decide, by decide, ⟨by decide, by decide, rfl⟩, (by intro p hp; cases hp), ⟨rfl, rfl⟩,
      fun _ => ⟨rfl, rfl, rfl⟩⟩,
    ⟨by decide, by decide⟩, _, rfl⟩

/-- Inside a DEC_RUN: an entry, an ETX, an unregistered tag, the end of the input. Also for AnyRegistryStepsThroughItsLoop. -/
theorem witness_EntryStepIsATurnOfTheLoop :
    (walkingAt 1 [0x02, 0x31, 0x20]).walking = true ∧ (walkingAt 1 [0x02, 0x03]).walking = true
      ∧ (walkingAt 1 [0x02, 0x60]).walking = true ∧ (walkingAt 1 [0x02]).walking = true := by
  decide

/-- The smallest legal buffers, a message open with room for its trailer alone, ENC_END to come. -/
theorem witness_EveryWellFormedBlockKeepsTheInvariants :
    Params.wf { defaultParams with ibufSize := 9, obufSize := 4 } = true
      ∧ Inv { defaultParams with ibufSize := 9, obufSize := 4 } { opened with pending := [.write 0 3] }
      ∧ ChecksumInv { opened with pending := [.write 0 3] }
      ∧ ∃ t, stepWith { defaultParams with ibufSize := 9, obufSize := 4 } { opened with pending := [.write 0 3] } = .next t :=
  ⟨witness_params.2,
    ⟨by decide, by decide, by decide, by decide, ⟨by decide, by decide, rfl⟩, (by intro p hp; cases hp), ⟨rfl, rfl⟩,
      fun _ => ⟨rfl, rfl, rfl⟩⟩,
    ⟨by decide, by decide⟩, _, rfl⟩

theorem witness_OperandWritesKeepTheLowBits :
    ∀ off ∈ [0x010, 0x014, 0x018, 0x01C, 0x020, 0x024, 0x040 + 4 * (0 : Fin 8).val, 0x040 + 4 * (7 : Fin 8).val],
      (with1 (.write off 0xFFFFFFFF)).walking = false
        ∧ (with1 (.write off 0xFFFFFFFF)).pending = .write off 0xFFFFFFFF :: [] := by
  decide

/-- ILEN; the first and last byte of the buffer, the first byte beyond it, the last offset of the clause. -/
theorem witness_InputWritesLeaveTheResults :
    (with1 (.write 0x0C0 0xFFFF)).walking = false ∧ (with1 (.write 0x0C0 0xFFFF)).pending = .write 0x0C0 0xFFFF :: []
      ∧ ∀ a ∈ [0, 511, 512, 4095], (with1 (.write (0x1000 + a) 7)).pending = .write (0x1000 + a) 7 :: [] ∧ a < 4096 := by
  decide

/-- CRES, an unmapped offset, the byte after IBUF, OBUF, a result slot. -/
theorem witness_OtherWritesAreIgnored :
    ∀ off ∈ [0x004, 0x0FFF, 0x1000 + 512, 0x2000, 0x4000],
      (with1 (.write off 1)).walking = false ∧ (with1 (.write off 1)).pending = .write off 1 :: []
        ∧ off ∉ [0x000, 0x010, 0x014, 0x018, 0x01C, 0x020, 0x024, 0x040, 0x044, 0x048, 0x04C, 0x050, 0x054, 0x058, 0x05C,
          0x0C0]
        ∧ ¬ (0x1000 ≤ off ∧ off < 0x1000 + 512) := by
  decide

/-- The ends of the windows, and offsets outside the map: between registers, after each window, inside a slot, after the last. -/
theorem witness_HostReadsReturnTheRegisters :
    (0 < 512 ∧ 511 < 512) ∧ (0 < 256 ∧ 255 < 256)
      ∧ ∀ off ∈ [0x00C, 0x105, 0x0FFF, 0x1000 + 512, 0x2000 + 512, 0x4000 + 0x24, 0x4000 + 0x40 * 256],
        off ∉ [0x000, 0x004, 0x008, 0x010, 0x014, 0x018, 0x01C, 0x020, 0x024, 0x040, 0x044, 0x048, 0x04C, 0x050, 0x054, 0x058,
          0x05C, 0x080, 0x084, 0x088, 0x08C, 0x090, 0x094, 0x098, 0x0C0, 0x0C4, 0x0C8, 0x0CC, 0x0D0, 0x0D4, 0x0D8, 0x0DC,
          0x0E0, 0x100, 0x104]
          ∧ ¬ (0x1000 ≤ off ∧ off < 0x1000 + 512) ∧ ¬ (0x2000 ≤ off ∧ off < 0x2000 + 512)
          ∧ ∀ id, id < 256 → off ≠ 0x4000 + 0x40 * id ∧ ∀ k : Fin 8, off ≠ 0x4000 + 0x40 * id + 4 + 4 * k.val := by
  refine ⟨by decide, by decide, ?_⟩
  intro off hoff
  simp only [List.mem_cons, List.not_mem_nil, or_false] at hoff
  rcases hoff with rfl | rfl | rfl | rfl | rfl | rfl | rfl <;>
    exact ⟨by decide, by decide, by decide, fun id hid => ⟨by omega, fun k => by omega⟩⟩

theorem witness_StatusIsAView :
    (with1 (.write 0x008 1)).walking = false ∧ (with1 (.write 0x008 1)).pending = .write 0x008 1 :: [] := by
  decide

theorem witness_ReadsAndIdlingChangeNothing :
    (with1 (.read 0x004)).walking = false ∧ (with1 (.read 0x004)).pending = .read 0x004 :: []
      ∧ State.reset.walking = false ∧ State.reset.pending = [] := by
  decide

theorem witness_PowerOnClearsTheBlock :
    (with1 .powerOn).walking = false ∧ (with1 .powerOn).pending = .powerOn :: [] := by
  decide

/-- The ends of the three ranges of illegal codes, and a value whose high bits differ. -/
theorem witness_IllegalCodesWriteOnlyCres :
    (∀ k ∈ [0x04, 0x0f, 0x11, 0x1f, 0x22, 0xfe, 0x104],
      (with1 (.write 0 (BitVec.ofNat 32 k))).walking = false
        ∧ (with1 (.write 0 (BitVec.ofNat 32 k))).pending = .write 0 (BitVec.ofNat 32 k) :: []
        ∧ (BitVec.ofNat 32 k).extractLsb' 0 8 ∉ ([0x00, 0x01, 0x02, 0x03, 0x10, 0x20, 0x21, 0xff] : List Byte))
      ∧ (0x101 : Word).extractLsb' 0 8 = (0x001 : Word).extractLsb' 0 8
      ∧ (with1 (.write 0 0x101)).pending = .write 0 0x101 :: [] := by
  decide

/-- Both answers of the two queries, and the tags of their examples. -/
theorem witness_RegTypeofAndRegScaleof :
    regDefault 0x00 = none ∧ (∃ d, regDefault 0x31 = some d ∧ d.scale = none)
      ∧ (∃ d, regDefault 0x36 = some d ∧ d.scale = some (-2)) ∧ (∃ d, regDefault 0x02 = some d)
      ∧ { State.reset with opId := 0x03 }.opId = 0x03 :=
  ⟨rfl, ⟨_, rfl, rfl⟩, ⟨_, rfl, rfl⟩, ⟨_, rfl⟩, rfl⟩

theorem witness_SequenceErrorOutsideAnOpenMessage :
    State.reset.estate ≠ .eOpen ∧ { State.reset with estate := EState.eDone }.estate ≠ .eOpen
      ∧ opened.estate = .eOpen ∧ (∃ t, exec .encField opened = .next t) ∧ (∃ t, exec .encEnd opened = .next t)
      ∧ ∀ i ∈ [Instr.nop, .encBegin, .decRun, .regTypeof, .regScaleof, .reset], ∃ t, exec i State.reset = .next t := by
  refine ⟨by decide, by decide, rfl, ⟨_, rfl⟩, ⟨_, rfl⟩, ?_⟩
  intro i hi
  simp only [List.mem_cons, List.not_mem_nil, or_false] at hi
  rcases hi with rfl | rfl | rfl | rfl | rfl | rfl <;> exact ⟨_, rfl⟩

/-- An unregistered tag and the two framing tags. -/
theorem witness_UnregisteredAndFramingTagsAreSkipped :
    opened.estate = .eOpen ∧ regDefault { opened with opId := 0x00 }.opId = none
      ∧ { opened with opId := 0x02 }.opId = 0x02 ∧ { opened with opId := 0x03 }.opId = 0x03 :=
  ⟨rfl, rfl, rfl, rfl⟩

/-- FLAGS1 as a marker is no value; FLAGS1 = 0x20 does not fit from WC = 508 on. -/
theorem witness_InvalidAndOversizedFieldsAreSkipped :
    (∃ d, regDefault 0x31 = some d ∧ payloadOf d (loadOperand (noneOp 0x31) opened) = none)
      ∧ ∃ d p, regDefault 0x31 = some d ∧ payloadOf d { loadOperand (intOp 0x31 0x20) opened with wc := 508 } = some p
        ∧ 512 < 508 + 1 + p.length + 3 :=
  ⟨⟨_, rfl, by decide⟩, ⟨_, [0x20], rfl, by decide, by decide⟩⟩

/-- FLAGS1 = 0x20 fits from WC = 507 on. -/
theorem witness_EncFieldEmitsTheEntry :
    ∃ d, { loadOperand (intOp 0x31 0x20) opened with wc := 507 }.estate = .eOpen
      ∧ regDefault { loadOperand (intOp 0x31 0x20) opened with wc := 507 }.opId = some d
      ∧ payloadOf d { loadOperand (intOp 0x31 0x20) opened with wc := 507 } = some [0x20]
      ∧ (0x31 : Byte) ≠ 0x02 ∧ (0x31 : Byte) ≠ 0x03
      ∧ { loadOperand (intOp 0x31 0x20) opened with wc := 507 }.wc.toNat + 1 + [(0x20 : Byte)].length + 3 ≤ 512 :=
  ⟨_, rfl, rfl, by decide, by decide, by decide, by decide⟩

/-- The empty message and the last cursor from which the trailer fits; no open message. -/
theorem witness_EncEndFinishesTheMessage :
    opened.estate = .eOpen ∧ opened.wc.toNat + 3 ≤ 512
      ∧ { opened with wc := 509 }.estate = .eOpen ∧ { opened with wc := 509 }.wc.toNat + 3 ≤ 512
      ∧ State.reset.estate ≠ .eOpen := by
  decide

/-- Forty fields of 13 bytes: the fortieth does not fit. -/
theorem witness_OverflowNeedsThirtyNineFields :
    (encodeCodes defaultParams (List.replicate 40 (elemsOp 0x30 [1, 2, 3])) State.reset)[39]? = some .bufferOverflow := by
  decide +kernel

/-- The widest and the narrowest denominator. -/
theorem witness_RoundHalfUpIsFloorOfPlusHalf : 0 < 1 ∧ 0 < 10 ^ 255 := by
  decide

/-- A scaled field and an unscaled one, by both operand kinds. -/
theorem witness_IntegerScalarPayload :
    (∃ d, regDefault 0x36 = some d ∧ d.type = .scalar .two true false
        ∧ payloadOf d (loadOperand (decOp 0x36 2345 (-2)) opened) = some [0x29, 0x09])
      ∧ ∃ d, regDefault 0x31 = some d ∧ d.type = .scalar .one false false
        ∧ payloadOf d (loadOperand (intOp 0x31 255) opened) = some [0xFF] :=
  ⟨⟨_, rfl, rfl, by decide⟩, ⟨_, rfl, rfl, by decide⟩⟩

/-- One record of each type, with its payload; and the reserved kinds. -/
theorem witness_MarkerFloatArrayAndRecordPayloads :
    (∃ d, regDefault 0x58 = some d ∧ d.type = .marker ∧ payloadOf d (loadOperand (noneOp 0x58) opened) = some [])
      ∧ (∃ d, regDefault 0x26 = some d ∧ d.type = .scalar .four false true
        ∧ payloadOf d (loadOperand (f32Op 0x26 0x3FC00000) opened) = some [0x00, 0x00, 0xC0, 0x3F])
      ∧ (∃ d, regDefault 0x1d = some d ∧ d.type = .fixedArray .one 3 ∧ 3 ≤ 8
        ∧ payloadOf d (loadOperand (elemsOp 0x1d [255, 0, 1]) opened) = some [255, 0, 1])
      ∧ (∃ d, regDefault 0x14 = some d ∧ d.type = .dateTime
        ∧ payloadOf d (loadOperand (elemsOp 0x14 [2026, 11, 10, 9, 28, 59]) opened)
          = some [0xEA, 0x07, 0x0B, 0x0A, 0x09, 0x1C, 0x3B])
      ∧ 5 ≤ { opened with opKind := 5 }.opKind.toNat ∧ 5 ≤ { opened with opKind := 7 }.opKind.toNat :=
  ⟨⟨_, rfl, rfl, by decide⟩, ⟨_, rfl, rfl, by decide⟩, ⟨_, rfl, rfl, by decide, by decide⟩, ⟨_, rfl, rfl, by decide⟩,
    by decide, by decide⟩

theorem witness_PayloadHasTheRecordLength :
    (recordOf (.fixedArray .four 8) none .full).wf = true
      ∧ (payloadOf (recordOf (.fixedArray .four 8) none .full)
          (loadOperand (elemsOp 0x30 [1, 2, 3, 4, 5, 6, 7, 8]) opened)).isSome = true := by
  decide

/-- A message that just fits its buffer, with a skipped field in it. -/
theorem witness_EncodeMessageIsTheFramedEntries :
    Params.wf { defaultParams with obufSize := 6 } = true
      ∧ 4 + entriesLength (acceptedEntries { defaultParams with obufSize := 6 } [intOp 0x34 2000, intOp 0x31 0x20]) ≤ 6 := by
  decide +kernel

/-- 511 bytes after STX fill the default buffer. -/
theorem witness_RunningChecksumEqualsBatch :
    defaultParams.wf = true ∧ 1 + (List.replicate 511 (0x31 : Byte)).length ≤ defaultParams.obufSize :=
  ⟨witness_params.1, by rw [List.length_replicate]; decide⟩

theorem witness_OneChangedByteChangesTheChecksum : (0x20 : Byte) ≠ 0x21 := by
  decide

/-- An entry that parses with the default registry. -/
theorem flags1_fits (v : Byte) : EntryFits defaultParams (0x31, [v]) :=
  ⟨fun h => absurd h (by decide : ¬(0x31 : Byte) = 0x03), _, rfl, rfl⟩

/-- A gateway header whose first byte is not STX. -/
theorem header_fits : HeaderFits [0x42, 1, 2, 3, 4] :=
  Or.inr ⟨rfl, by decide⟩

theorem witness_ChangedPayloadByteIsCaught :
    defaultParams.wf = true ∧ HeaderFits [0x42, 1, 2, 3, 4]
      ∧ (∀ e ∈ ([] : List (Byte × List Byte)) ++ (0x31, [] ++ (0x20 : Byte) :: []) :: [], EntryFits defaultParams e)
      ∧ (0x20 : Byte) ≠ 0x21
      ∧ ([0x42, 1, 2, 3, 4] ++ spanBytes ([] ++ (0x31, [] ++ (0x21 : Byte) :: []) :: []) ++ [0x56, 0xDE]).length
        ≤ defaultParams.ibufSize :=
  ⟨witness_params.1, header_fits, by simpa using flags1_fits 0x20, by decide, by decide⟩

theorem witness_AnyChangedCoveredByteIsCaught :
    (∀ e ∈ [((0x31 : Byte), [(0x20 : Byte)])], EntryFits defaultParams e)
      ∧ spanBytes [(0x31, [0x20])] = [] ++ (0x02 : Byte) :: [0x31, 0x20, 0x03] ∧ (0x02 : Byte) ≠ 0x00
      ∧ (messageBytes [(0x31, [0x20])]).length ≤ defaultParams.ibufSize :=
  ⟨by simpa using flags1_fits 0x20, by decide, by decide, by decide⟩

/-- ETX under the cursor with one byte after it, with its checksum, with a wrong one. -/
theorem witness_EtxEndsTheDecode :
    (∀ bs ∈ ([[0x02, 0x03, 0x05], [0x02, 0x03, 0x05, 0x07], [0x02, 0x03, 0x05, 0x08]] : List (List Byte)),
      (walkingAt 1 bs).walking = true ∧ (walkingAt 1 bs).rc < (walkingAt 1 bs).ilen.toNat)
      ∧ (walkingAt 1 [0x02, 0x03, 0x05]).ilen.toNat < 1 + 3 ∧ ¬ (walkingAt 1 [0x02, 0x03, 0x05, 0x07]).ilen.toNat < 1 + 3
      ∧ fletcher (ibufRead (walkingAt 1 [0x02, 0x03, 0x05, 0x07]) 0 2) = (0x05, 0x07) := by
  decide

/-- The four causes, the two short ones at their limits. -/
theorem witness_MalformedMessageCauses :
    (loaded []).ilen = 0
      ∧ (∀ bs ∈ ([[0x42], [0x42, 1, 2, 3, 4]] : List (List Byte)),
        (loaded bs).ilen ≠ 0 ∧ ibufByte (loaded bs) 0 ≠ 0x02 ∧ (loaded bs).ilen.toNat ≤ 5)
      ∧ (5 < (loaded [0x42, 1, 2, 3, 4, 5]).ilen.toNat ∧ ibufByte (loaded [0x42, 1, 2, 3, 4, 5]) 0 ≠ 0x02
        ∧ ibufByte (loaded [0x42, 1, 2, 3, 4, 5]) 5 ≠ 0x02)
      ∧ ibufRead (loaded [0x02, 0x31, 0x20]) 0 3 = [] ++ Config.stx :: entriesBytes [(0x31, [0x20])]
      ∧ HeaderFits [] ∧ (∀ e ∈ [((0x31 : Byte), [(0x20 : Byte)])], EntryFits defaultParams e) :=
  ⟨by decide, by decide, by decide, by decide, Or.inl rfl, by simpa using flags1_fits 0x20⟩

/-- The four defects after one entry that parses. -/
theorem witness_FirstDefectEndsTheDecode :
    HeaderFits [] ∧ (∀ e ∈ [((0x31 : Byte), [(0x20 : Byte)])], EntryFits defaultParams e)
      ∧ (∀ tail ∈ ([[0x60, 1], [0x36, 0x29], [0x03, 0x56], [0x03, 0x56, 0xDF, 0]] : List (List Byte)),
        ibufRead (loaded ([0x02, 0x31, 0x20] ++ tail)) 0 (loaded ([0x02, 0x31, 0x20] ++ tail)).ilen.toNat
          = [] ++ Config.stx :: (entriesBytes [(0x31, [0x20])] ++ tail))
      ∧ regDefault 0x60 = none ∧ (∃ d, regDefault 0x36 = some d ∧ [(0x29 : Byte)].length < paylen d.type)
      ∧ [(0x56 : Byte)].length < 2 ∧ ((0x56 : Byte), (0xDF : Byte)) ≠ fletcher (spanBytes [(0x31, [0x20])]) :=
  ⟨Or.inl rfl, by simpa using flags1_fits 0x20, by decide, rfl, ⟨_, rfl, by decide⟩, by decide, by decide⟩

/-- A header, two entries with one tag, bytes after the message. -/
theorem witness_DecRunDecodesAMessage :
    HeaderFits [0x42, 1, 2, 3, 4]
      ∧ (∀ e ∈ [((0x31 : Byte), [(0x20 : Byte)]), (0x31, [0x40])], EntryFits defaultParams e)
      ∧ ibufRead (loaded [0x42, 1, 2, 3, 4, 0x02, 0x31, 0x20, 0x31, 0x40, 0x03, 0xC7, 0x97, 0xEE]) 0 14
        = [0x42, 1, 2, 3, 4] ++ messageBytes [(0x31, [0x20]), (0x31, [0x40])] ++ [0xEE]
      ∧ ([0x42, 1, 2, 3, 4] ++ messageBytes [(0x31, [0x20]), (0x31, [0x40])] ++ [(0xEE : Byte)]).length
        ≤ defaultParams.ibufSize := by
  refine ⟨header_fits, ?_, by decide, by decide⟩
  intro e he
  simp only [List.mem_cons, List.not_mem_nil, or_false] at he
  rcases he with rfl | rfl <;> exact flags1_fits _

/-- Two states with the same input and different pasts. -/
theorem witness_DecodeForgetsThePast :
    (loaded [0x02]).ilen = { loaded [0x02] with wc := 9, dcnt := 3, da := 7 }.ilen
      ∧ ∀ a, a < (loaded [0x02]).ilen.toNat →
        ibufByte (loaded [0x02]) a = ibufByte { loaded [0x02] with wc := 9, dcnt := 3, da := 7 } a :=
  ⟨rfl, fun _ _ => rfl⟩

/-- HITEMP = 23.45 between a field that is refused and another that is accepted. -/
theorem witness_FieldsSurviveTheRoundTrip :
    [intOp 0x36 9999, decOp 0x36 2345 (-2), intOp 0x31 0x20][1]? = some (decOp 0x36 2345 (-2))
      ∧ (∃ d, defaultParams.reg 0x36 = some d)
      ∧ encodeCodes defaultParams [intOp 0x36 9999, decOp 0x36 2345 (-2), intOp 0x31 0x20] State.reset
        = [.invalidFieldValue, .ok, .ok]
      ∧ (0x31 : Byte) ≠ 0x36
      ∧ (encodeBytes defaultParams [intOp 0x36 9999, decOp 0x36 2345 (-2), intOp 0x31 0x20] State.reset).length
        ≤ defaultParams.ibufSize :=
  ⟨by decide, ⟨_, rfl⟩, by decide, by decide, by decide⟩

end Sys2Proof.Tests
end

section
/-! PROOFS. The host's writes and reads of 10_state.md: what a write that runs no command does to the block (R386), the input
registers (R32) and the STATUS view (R28). -/

namespace Sys2Proof.Proofs

open Sys2Proof Sys2Proof.Machine

/-! ### A write that runs no command -/

/-- Between commands, an access that runs no command ends the step. -/
theorem step_of_done {s t : State} (hw : s.walking = false) (hf : fetchHost defaultParams s = .done t) :
    step s = .next t := by
  simp only [step, fetch, hw, Bool.false_eq_true, if_false, hf]

/-- The host's next access is a write outside CMD: the register it names takes the value, and no command runs (R386). -/
theorem fetchHost_write {C : Params} {s : State} {off : Nat} {v : Word} {accesses : List HostAccess}
    (hp : s.pending = .write off v :: accesses) (hr : regOf C off ≠ .cmd) :
    fetchHost C s = .done (writeReg C (regOf C off) v { s with pending := accesses }) := by
  rcases fetchHost_cases C s with ⟨h, -⟩ | ⟨_, _, h, -⟩ | ⟨_, h, -⟩ | ⟨_, _, _, _, h, hcmd, -⟩ | ⟨_, _, _, h, hcmd, -⟩
    | ⟨_, _, _, h, -, hf⟩ <;> rw [hp] at h <;> cases h
  · exact absurd hcmd hr
  · exact absurd hcmd hr
  · exact hf

/-- A step that takes a write outside CMD. -/
theorem step_write {s : State} {off : Nat} {v : Word} {accesses : List HostAccess} {r : HostReg} (hw : s.walking = false)
    (hp : s.pending = .write off v :: accesses) (hreg : regOf defaultParams off = r) (hr : r ≠ .cmd) :
    step s = .next (writeReg defaultParams r v { s with pending := accesses }) := by
  subst hreg
  exact step_of_done hw (fetchHost_write hp hr)

/-! ### ILEN and IBUF (R32) -/

/-- The offsets after the 512 bytes of IBUF and before OBUF name no register (R42). -/
theorem regOf_after_ibuf {a : Nat} (hlo : 512 ≤ a) (hhi : a < 4096) : regOf defaultParams (0x1000 + a) = .unmapped := by
  have hsize : defaultParams.ibufSize = 512 := rfl
  unfold regOf
  split <;> try omega
  rw [windowOf, if_neg (by omega), if_neg (by omega), if_neg (by omega)]

/-- ILEN saturates at the size of IBUF; no width is lost, since the low half of the value is what is compared. -/
theorem ilenOf_toNat (C : Params) (v : Word) : (ilenOf C v).toNat = min (v.extractLsb' 0 16).toNat C.ibufSize := by
  have hlow : v.setWidth 16 = v.extractLsb' 0 16 := BitVec.setWidth_eq_extractLsb' (by decide)
  have hlt : (v.extractLsb' 0 16).toNat < 2 ^ 16 := BitVec.isLt _
  rw [ilenOf, hlow, BitVec.toNat_ofNat, Nat.mod_eq_of_lt (by omega)]

/-- IBUF after one byte is written: that byte if it lies inside the buffer, every other byte as before (R32, R41). -/
theorem ibufByte_of_bufWrite {s t : State} {size a : Nat} {v : Byte} (hb : t.ibuf = bufWrite size s.ibuf a v)
    (he : t.epoch = s.epoch) (k : Nat) : ibufByte t k = if k = a ∧ a < size then v else ibufByte s k := by
  simp only [ibufByte, hb, he, lookup_bufWrite, eq_comm (a := k)]
  split <;> rfl

/-- Everything but IBUF and ILEN is the same, and these accesses are still to come. -/
def OnlyInput (s t : State) (accesses : List HostAccess) : Prop :=
  t.cres = s.cres ∧ SameOperands s t ∧ SameEncoder s t ∧ SameDecRegs s t ∧ SameResults s t ∧ SameQueries s t
    ∧ SameWalk s t ∧ t.pending = accesses ∧ t.epoch = s.epoch

/-- Whatever IBUF and ILEN become, the rest of the block is the same. -/
theorem onlyInput_update (s : State) (m : Memory) (n : Half) (accesses : List HostAccess) :
    OnlyInput s { s with ibuf := m, ilen := n, pending := accesses } accesses :=
  have operands : SameOperands s { s with ibuf := m, ilen := n, pending := accesses } :=
    ⟨rfl, rfl, rfl, rfl, rfl, rfl, rfl⟩
  have encoder : SameEncoder s { s with ibuf := m, ilen := n, pending := accesses } :=
    ⟨⟨rfl, rfl, rfl, rfl, rfl, rfl, rfl⟩, obufByte_congr rfl rfl⟩
  ⟨rfl, operands, encoder, ⟨rfl, rfl, rfl, rfl, rfl, rfl, rfl⟩, ⟨rfl, fun _ => ⟨rfl, rfl⟩⟩, ⟨rfl, rfl⟩, ⟨rfl, rfl, rfl⟩,
    rfl, rfl⟩

/-- Settles O15: the offset names ILEN, a byte of IBUF, or nothing, and each such write is an update of the input alone. -/
theorem inputWritesLeaveTheResults : Obligations.InputWritesLeaveTheResults := by
  unfold Obligations.InputWritesLeaveTheResults
  intro s v accesses hw
  refine ⟨fun hp => ?ilen, fun a hp ha => ?ibuf⟩
  case ilen =>
    exact ⟨_, step_write hw hp (r := .ilen) rfl nofun, ilenOf_toNat defaultParams v, rfl,
      onlyInput_update s s.ibuf (ilenOf defaultParams v) accesses⟩
  case ibuf =>
    by_cases hin : a < 512
    · refine ⟨_, step_write hw hp (regOf_ibuf hin) nofun, rfl, ibufByte_of_bufWrite ?_ rfl,
        onlyInput_update s (bufWrite 512 s.ibuf a (v.setWidth 8)) s.ilen accesses⟩
      rw [← BitVec.setWidth_eq_extractLsb' (by decide)]
      rfl
    · refine ⟨_, step_write hw hp (regOf_after_ibuf (by omega) ha) nofun, rfl, fun k => ?_,
        onlyInput_update s s.ibuf s.ilen accesses⟩
      rw [if_neg (fun h => hin h.2)]
      rfl

/-! ### STATUS (R28) -/

/-- A concatenation as a number: the upper part counts in units of the lower part's range. -/
theorem toNat_append_eq_add {m n : Nat} (x : BitVec m) (y : BitVec n) :
    (x ++ y).toNat = 2 ^ n * x.toNat + y.toNat := by
  rw [BitVec.toNat_append, Nat.shiftLeft_eq, Nat.mul_comm, Nat.two_pow_add_eq_or_of_lt y.isLt]

/-- STATUS as a number: each field at its place of R28, zeros above. -/
theorem statusWord_toNat (s : State) :
    (statusWord s).toNat = (estateBits s.estate).toNat + 4 * (dstateBits s.dstate).toNat + 16 * s.advLen.toNat
      + 32 * s.dhdr.toNat := by
  have hzero : (0 : BitVec 26).toNat = 0 := rfl
  simp only [statusWord, toNat_append_eq_add, BitVec.toNat_ofBool, hzero]
  omega

/-- Settles O18: offset 0x008 names STATUS, whose read is computed from the four fields and whose write is ignored. -/
theorem statusIsAView : Obligations.StatusIsAView := by
  unfold Obligations.StatusIsAView
  refine ⟨fun s => ?view, ?reset, fun s v accesses hw hp => ?write⟩
  case view =>
    rw [← statusWord_toNat, BitVec.ofNat_toNat, BitVec.setWidth_eq]
    rfl
  case reset => rfl
  case write => exact step_write hw hp (r := .status) rfl nofun

end Sys2Proof.Proofs
end

section
/-! PROOFS. The two queries of the Field Registry (40_registry.md, R141 and R142): what each answers, and that it writes
nothing but its answer and CRES. -/

namespace Sys2Proof.Proofs

open Sys2Proof Sys2Proof.Machine

/-! ### The records of REG_DEFAULT -/

/-- Every record of REG_DEFAULT is well formed (R146), arm by arm of the table. -/
theorem regDefault_wf {tag : Byte} {d : Record} (h : regDefault tag = some d) : d.wf = true := by
  have hall : (regDefault tag).all Record.wf = true := by
    unfold regDefault
    split <;> rfl
  rw [h] at hall
  exact hall

/-- A well-formed payload is at most 32 bytes long (R146 (g)). -/
theorem paylen_le_of_wf {d : Record} (h : d.wf = true) : paylen d.type ≤ 32 := by
  rw [Record.wf, Bool.and_eq_true] at h
  exact of_decide_eq_true h.2

/-- The exponent of a well-formed record fits a signed byte (R140); only an integer scalar has one (R146). -/
theorem scale_bounds_of_wf {d : Record} {k : Int} (h : d.wf = true) (hk : d.scale = some k) : -128 ≤ k ∧ k ≤ 127 := by
  obtain ⟨name, ty, scale, range⟩ := d
  subst hk
  cases ty with
  | marker => simp [Record.wf, Record.plain] at h
  | scalar w signed isFloat =>
    cases isFloat with
    | true => simp [Record.wf, Record.plain] at h
    | false =>
      simp only [Record.wf, Bool.and_eq_true, decide_eq_true_eq] at h
      exact h.1.2
  | fixedArray ew c => simp [Record.wf, Record.plain] at h
  | dateTime => simp [Record.wf, Record.plain] at h

/-! ### The fields of Q_TYPE and Q_SCALE -/

/-- `kind` fits its three bits (R125). -/
theorem typeKind_lt (ty : FieldType) : typeKind ty < 8 := by
  cases ty <;> simp [typeKind]

/-- A width fits three bits (R125). -/
theorem widthBytes_lt (w : Width) : widthBytes w < 8 := by
  cases w <;> decide

/-- `width` fits its three bits (R125). -/
theorem typeWidth_lt (ty : FieldType) : typeWidth ty < 8 := by
  cases ty with
  | marker => decide
  | scalar w signed isFloat => exact widthBytes_lt w
  | fixedArray ew c => exact widthBytes_lt ew
  | dateTime => decide

/-- A bit of a word as a number: the parity of what is left when the lower bits are dropped. -/
theorem getLsbD_of_div_mod {w n : Nat} {x : BitVec w} {b : Bool} (h : x.toNat / 2 ^ n % 2 = b.toNat) :
    x.getLsbD n = b := by
  rw [BitVec.getLsbD, Nat.testBit_eq_decide_div_mod_eq, h]
  cases b <;> rfl

/-- A bit field as a number. -/
theorem extractLsb'_toNat_eq_div_mod {w : Nat} (x : BitVec w) (start len : Nat) :
    (x.extractLsb' start len).toNat = x.toNat / 2 ^ start % 2 ^ len := by
  rw [BitVec.extractLsb'_toNat, Nat.shiftRight_eq_div_pow]

/-- Q_TYPE value `q` says `ty` in the six fields of R125. -/
def HoldsType (q : BitVec 18) (ty : FieldType) : Prop :=
  (q.extractLsb' 0 3).toNat = typeKind ty ∧ (q.extractLsb' 3 3).toNat = typeWidth ty
    ∧ q.getLsbD 6 = typeSigned ty ∧ q.getLsbD 7 = typeFloat ty
    ∧ (q.extractLsb' 8 4).toNat = typeCount ty ∧ (q.extractLsb' 12 6).toNat = paylen ty

/-- No field of Q_TYPE runs over into the next one: each reads back what was packed. -/
theorem holdsType_packType {ty : FieldType} (hcount : typeCount ty < 16) (hlen : paylen ty < 64) :
    HoldsType (packType ty) ty := by
  have hkind := typeKind_lt ty
  have hwidth := typeWidth_lt ty
  have hsigned := Bool.toNat_lt (typeSigned ty)
  have hfloat := Bool.toNat_lt (typeFloat ty)
  have hnat : (packType ty).toNat = typeKind ty + 8 * typeWidth ty + 64 * (typeSigned ty).toNat
      + 128 * (typeFloat ty).toNat + 256 * typeCount ty + 4096 * paylen ty := by
    rw [packType, BitVec.toNat_ofNat]
    omega
  refine ⟨?kind, ?width, getLsbD_of_div_mod ?signed, getLsbD_of_div_mod ?float, ?count, ?len⟩ <;>
    simp only [extractLsb'_toNat_eq_div_mod, hnat] <;> omega

/-- Q_SCALE of a factor `10^k`: the flag in bit 8, the exponent as a signed byte below it (R126). -/
theorem packScale_some_fields {k : Int} (hlo : -128 ≤ k) (hhi : k ≤ 127) :
    (packScale (some k)).toNat = 0x100 + (k % 256).toNat ∧ (packScale (some k)).getLsbD 8 = true
      ∧ ((packScale (some k)).extractLsb' 0 8).toInt = k := by
  have hnat : (packScale (some k)).toNat = 0x100 + (k % 256).toNat := by
    rw [packScale, BitVec.toNat_ofNat]
    omega
  refine ⟨hnat, getLsbD_of_div_mod ?flag, ?exponent⟩
  case flag =>
    rw [hnat, Bool.toNat_true]
    omega
  case exponent =>
    rw [BitVec.toInt_eq_toNat_cond, extractLsb'_toNat_eq_div_mod, hnat]
    omega

/-! ### The two queries -/

/-- The result code of a query: whether the tag is registered (R141, R142). -/
def queryCode : Option Record → ResultCode
  | none => .unknownField
  | some _ => .ok

/-- REG_TYPEOF writes Q_TYPE and CRES (R141). -/
theorem exec_regTypeof (s : State) :
    exec .regTypeof s = .next { s with
      qType := (regDefault s.opId).elim 0 fun d => packType d.type
      cres := queryCode (regDefault s.opId) } := by
  have harm : exec .regTypeof s = .next (regTypeof defaultParams s) := rfl
  rw [harm, regTypeof, show defaultParams.reg = regDefault from rfl]
  cases regDefault s.opId <;> rfl

/-- REG_SCALEOF writes Q_SCALE and CRES (R142). -/
theorem exec_regScaleof (s : State) :
    exec .regScaleof s = .next { s with
      qScale := (regDefault s.opId).elim 0 fun d => packScale d.scale
      cres := queryCode (regDefault s.opId) } := by
  have harm : exec .regScaleof s = .next (regScaleof defaultParams s) := rfl
  rw [harm, regScaleof, show defaultParams.reg = regDefault from rfl]
  cases regDefault s.opId <;> rfl

/-- Whatever a query answers, the rest of the block is the same. -/
theorem query_frame (s : State) (qt : BitVec 18) (qs : BitVec 9) (c : ResultCode) :
    SameOperands s { s with qType := qt, qScale := qs, cres := c }
      ∧ SameEncoder s { s with qType := qt, qScale := qs, cres := c }
      ∧ SameDecoder s { s with qType := qt, qScale := qs, cres := c }
      ∧ SameOutside s { s with qType := qt, qScale := qs, cres := c } :=
  ⟨⟨rfl, rfl, rfl, rfl, rfl, rfl, rfl⟩, ⟨⟨rfl, rfl, rfl, rfl, rfl, rfl, rfl⟩, obufByte_congr rfl rfl⟩,
    ⟨⟨rfl, ibufByte_congr rfl rfl⟩, ⟨rfl, rfl, rfl, rfl, rfl, rfl, rfl⟩, ⟨rfl, fun _ => ⟨rfl, rfl⟩⟩, ⟨rfl, rfl, rfl⟩⟩,
    ⟨rfl, rfl⟩⟩

/-- Settles O24: a registered record is well formed, so its type fits the fields of Q_TYPE. -/
theorem regTypeofAnswersTheType : Obligations.RegTypeofAnswersTheType := by
  unfold Obligations.RegTypeofAnswersTheType
  intro s
  refine ⟨_, exec_regTypeof s, ?answer, ?framing, ?zero, ?flags1, rfl, query_frame s _ _ _⟩
  case answer =>
    cases hd : regDefault s.opId with
    | none => exact ⟨rfl, rfl⟩
    | some d =>
      have hwf := regDefault_wf hd
      have hcount := typeCount_le_of_wf hwf
      have hlen := paylen_le_of_wf hwf
      obtain ⟨kind, width, signed, float, count, len⟩ := holdsType_packType (ty := d.type) (by omega) (by omega)
      exact ⟨kind, width, signed, float, count, len, rfl⟩
  case framing => rintro (h | h) <;> rw [h] <;> rfl
  case zero =>
    intro h
    rw [h]
    rfl
  case flags1 =>
    intro h
    rw [h]
    exact ⟨rfl, rfl⟩

/-- Settles O25: a registered record is well formed, so its exponent, if it has one, fits the signed byte of Q_SCALE. -/
theorem regScaleofAnswersTheScale : Obligations.RegScaleofAnswersTheScale := by
  unfold Obligations.RegScaleofAnswersTheScale
  intro s
  refine ⟨_, exec_regScaleof s, ?answer, ?hitemp, ?flags1, ?zero, rfl, query_frame s _ _ _⟩
  case answer =>
    cases hd : regDefault s.opId with
    | none => exact ⟨rfl, rfl⟩
    | some d =>
      refine ⟨rfl, ?_⟩
      cases hk : d.scale with
      | none =>
        simp only [Option.elim_some, hk]
        rfl
      | some k =>
        obtain ⟨hlo, hhi⟩ := scale_bounds_of_wf (regDefault_wf hd) hk
        simp only [Option.elim_some, hk]
        exact packScale_some_fields hlo hhi
  case hitemp =>
    intro h
    rw [h]
    rfl
  case flags1 =>
    intro h
    rw [h]
    exact ⟨rfl, rfl⟩
  case zero =>
    intro h
    rw [h]
    exact ⟨rfl, rfl⟩

end Sys2Proof.Proofs
end

section
/-! PROOFS. Operand values (43_encoder.md, R266 to R279): rounding, the payload of an integer scalar over the rationals, and
the payloads of the other field types. -/

namespace Sys2Proof.Proofs

open Sys2Proof Sys2Proof.Machine

/-! ### Rounding (R272) -/

/-- A quotient plus one half is one quotient of integers, whose floor is the integer division of the model. -/
theorem roundHalfUp_eq_floor (num : Int) {den : Nat} (h : 0 < den) :
    roundHalfUp num den = ⌊(num : ℚ) / den + 1 / 2⌋ := by
  have hden : (den : ℚ) ≠ 0 := by positivity
  have hsum : (num : ℚ) / den + 1 / 2 = ((2 * num + den : Int) : ℚ) / ((2 * den : Nat) : ℚ) := by
    push_cast
    field_simp
  rw [hsum, Rat.floor_intCast_div_natCast, roundHalfUp, Nat.cast_mul, Nat.cast_ofNat]

/-- For a power of ten with either sign of the exponent. -/
theorem roundScaled_eq_floor (m x : Int) : roundScaled m x = ⌊(m : ℚ) * (10 : ℚ) ^ x + 1 / 2⌋ := by
  unfold roundScaled
  split
  case isTrue hx =>
    obtain ⟨n, rfl⟩ := Int.eq_ofNat_of_zero_le hx
    have hint : (m : ℚ) * (10 : ℚ) ^ (n : Int) = ((m * 10 ^ n : Int) : ℚ) := by
      rw [zpow_natCast]
      push_cast
      rfl
    have hhalf : ⌊(1 / 2 : ℚ)⌋ = 0 := by norm_num
    rw [hint, Int.floor_intCast_add, hhalf, Int.add_zero, Int.toNat_natCast]
  case isFalse hx =>
    obtain ⟨n, hn⟩ := Int.eq_ofNat_of_zero_le (show 0 ≤ -x by omega)
    obtain rfl : x = -(n : Int) := by omega
    rw [neg_neg, Int.toNat_natCast, roundHalfUp_eq_floor m (by positivity), zpow_neg, zpow_natCast, ← div_eq_mul_inv]
    push_cast
    rfl

/-- Settles O33: both roundings are the floor, and the five examples are computed. -/
theorem roundHalfUpIsFloorOfPlusHalf : Obligations.RoundHalfUpIsFloorOfPlusHalf := by
  unfold Obligations.RoundHalfUpIsFloorOfPlusHalf
  exact ⟨fun num den h => roundHalfUp_eq_floor num h, roundScaled_eq_floor, by decide⟩

/-! ### The payload of an integer scalar (R270 to R276) -/

/-- `raw` is the raw integer of the exact value `q`: rounded in units of the factor, or `q` itself (R271, R273). -/
def IsRawOf (scale : Option Int) (q : ℚ) (raw : Int) : Prop :=
  match scale with
  | some k => raw = ⌊q / (10 : ℚ) ^ k + 1 / 2⌋
  | none => (raw : ℚ) = q

theorem rawOf_eq_some (scale : Option Int) (m x raw : Int) :
    rawOf scale m x = some raw ↔ IsRawOf scale ((m : ℚ) * (10 : ℚ) ^ x) raw := by
  cases scale with
  | none => exact exactInteger_eq_some m x raw
  | some k =>
    have hten : (10 : ℚ) ≠ 0 := by norm_num
    rw [rawOf, IsRawOf, roundScaled_eq_floor, zpow_sub₀ hten, ← mul_div_assoc, Option.some.injEq, eq_comm]

/-- `raw` lies in the field's range (R148, R275). -/
def InRange (range : FieldRange) (raw : Int) : Prop :=
  match range with
  | .full => True
  | .interval lo hi => lo ≤ raw ∧ raw ≤ hi
  | .nibbles hmax lmax => 0 ≤ raw ∧ raw ≤ 255 ∧ raw / 16 ≤ hmax ∧ raw % 16 ≤ lmax

theorem rangeAccepts_iff (range : FieldRange) (raw : Int) : rangeAccepts range raw = true ↔ InRange range raw := by
  cases range <;> simp [rangeAccepts, InRange, and_assoc]

/-- The type's range, as one condition on the raw value (R274). -/
theorem typeRange_iff (w : Width) (signed : Bool) (raw : Int) :
    (tmin w signed ≤ raw ∧ raw ≤ tmax w signed) ↔
      if signed then -(2 : Int) ^ (8 * widthBytes w - 1) ≤ raw ∧ raw ≤ (2 : Int) ^ (8 * widthBytes w - 1) - 1
      else 0 ≤ raw ∧ raw ≤ (2 : Int) ^ (8 * widthBytes w) - 1 := by
  cases signed <;> rfl

/-- An integer scalar takes an integer, of exponent 0, or an exact decimal (R269, R270). -/
theorem payloadOf_integer {s : State} {d : Record} {w : Width} {signed : Bool} (hty : d.type = .scalar w signed false)
    (p : List Byte) :
    payloadOf d s = some p ↔
      ∃ x : Int, ((operandKind s.opKind = .kInt ∧ x = 0) ∨ (operandKind s.opKind = .kDec ∧ x = s.opExp.toInt))
        ∧ intPayload w signed d.scale d.range (opMant s).toInt x = some p := by
  simp only [payloadOf, hty]
  cases operandKind s.opKind <;> simp

/-- Settles O34: the operand's exact value has a raw integer, which passes both range checks and is packed. -/
theorem integerScalarPayload : Obligations.IntegerScalarPayload := by
  unfold Obligations.IntegerScalarPayload
  intro s d w signed p hty
  rw [payloadOf_integer hty]
  constructor
  · rintro ⟨x, hop, hp⟩
    obtain ⟨raw, hraw, hlo, hhi, hrange, rfl⟩ := (intPayload_eq_some ..).mp hp
    refine ⟨(opMant s).toInt * (10 : ℚ) ^ x, raw, ?_, (rawOf_eq_some ..).mp hraw, (typeRange_iff ..).mp ⟨hlo, hhi⟩,
      (rangeAccepts_iff ..).mp hrange, rfl⟩
    rcases hop with ⟨hk, rfl⟩ | ⟨hk, rfl⟩
    · exact .inl ⟨hk, by simp⟩
    · exact .inr ⟨hk, rfl⟩
  · rintro ⟨q, raw, hop, hraw, hty, hrange, rfl⟩
    obtain ⟨hlo, hhi⟩ := (typeRange_iff ..).mpr hty
    have hpay (x : Int) (hq : q = (opMant s).toInt * (10 : ℚ) ^ x) :
        intPayload w signed d.scale d.range (opMant s).toInt x = some (leBytesInt (widthBytes w) raw) :=
      (intPayload_eq_some ..).mpr
        ⟨raw, (rawOf_eq_some ..).mpr (hq ▸ hraw), hlo, hhi, (rangeAccepts_iff ..).mpr hrange, rfl⟩
    rcases hop with ⟨hk, rfl⟩ | ⟨hk, rfl⟩
    · exact ⟨0, .inl ⟨hk, rfl⟩, hpay 0 (by simp)⟩
    · exact ⟨s.opExp.toInt, .inr ⟨hk, rfl⟩, hpay _ rfl⟩

/-! ### The payloads of the other types (R267, R268, R278, R279) -/

theorem payloadOf_marker {s : State} {d : Record} (hty : d.type = .marker) (p : List Byte) :
    payloadOf d s = some p ↔ operandKind s.opKind = .kNone ∧ p = [] := by
  simp only [payloadOf, hty]
  cases operandKind s.opKind <;> simp [eq_comm]

theorem payloadOf_float {s : State} {d : Record} {w : Width} {signed : Bool} (hty : d.type = .scalar w signed true)
    (p : List Byte) :
    payloadOf d s = some p ↔ operandKind s.opKind = .kF32 ∧ p = leBytes 4 s.opMantLo.toNat := by
  simp only [payloadOf, hty]
  cases operandKind s.opKind <;> simp [eq_comm]

theorem payloadOf_array {s : State} {d : Record} {ew : Width} {c : Nat} (hty : d.type = .fixedArray ew c)
    (p : List Byte) :
    payloadOf d s = some p ↔
      operandKind s.opKind = .kElems ∧ s.opN.toNat = c
        ∧ (∀ e ∈ s.ope.toList.take c, e.toNat < 2 ^ (8 * widthBytes ew))
        ∧ p = (s.ope.toList.take c).flatMap fun e => leBytes (widthBytes ew) e.toNat := by
  rw [← arrayPayload_eq_some]
  simp only [payloadOf, hty]
  cases operandKind s.opKind <;> simp

theorem payloadOf_dateTime {s : State} {d : Record} (hty : d.type = .dateTime) (p : List Byte) :
    payloadOf d s = some p ↔
      operandKind s.opKind = .kElems ∧ s.opN.toNat = 6 ∧ (s.ope.toList.getD 0 0).toNat < 65536
        ∧ (∀ e ∈ (s.ope.toList.drop 1).take 5, e.toNat < 256)
        ∧ p = leBytes 2 (s.ope.toList.getD 0 0).toNat
            ++ ((s.ope.toList.drop 1).take 5).map fun e => BitVec.ofNat 8 e.toNat := by
  rw [← dateTimePayload_eq_some]
  simp only [payloadOf, hty]
  cases operandKind s.opKind <;> simp

/-- The kinds 5 to 7 are reserved (R24). -/
theorem operandKind_reserved {k : BitVec 3} (h : 5 ≤ k.toNat) : operandKind k = .reserved := by
  unfold operandKind
  split
  case h_6 => rfl
  all_goals omega

/-- No field type takes a reserved kind (R266). -/
theorem payloadOf_reserved (d : Record) {s : State} (h : operandKind s.opKind = .reserved) : payloadOf d s = none := by
  unfold payloadOf
  rw [h]
  split <;> rfl

/-- The eight elements of an operand, by their places. -/
theorem toList_eq_map_finRange (v : Vector Word 8) : v.toList = (List.finRange 8).map fun k => v[k] := by
  apply List.ext_getElem <;> simp

/-- The first `c` places, counted or selected. -/
theorem take_finRange_eq_filter {c : Nat} (h : c ≤ 8) :
    (List.finRange 8).take c = (List.finRange 8).filter fun k => k.val < c := by
  interval_cases c <;> rfl

/-- Settles O35, type by type. -/
theorem markerFloatArrayAndRecordPayloads : Obligations.MarkerFloatArrayAndRecordPayloads := by
  unfold Obligations.MarkerFloatArrayAndRecordPayloads
  intro s d p
  refine ⟨fun hty => payloadOf_marker hty p, fun w sg hty => payloadOf_float hty p, fun ew c hty hc => ?array,
    fun hty => ?record, fun h => payloadOf_reserved d (operandKind_reserved h)⟩
  case array =>
    rw [payloadOf_array hty, toList_eq_map_finRange, ← List.map_take, take_finRange_eq_filter hc]
    simp [List.flatMap_map]
  case record =>
    rw [payloadOf_dateTime hty, toList_eq_map_finRange, ← BitVec.toNat_inj]
    simp [List.finRange_succ, and_assoc, BitVec.ofNat_toNat]

end Sys2Proof.Proofs
end

section
/-! PROOFS. The encoder's commands (43_encoder.md): ENC_BEGIN (R261), the skips of ENC_FIELD for identifiers that name no
field (R264, R265), and ENC_END (R288, R290). -/

namespace Sys2Proof.Proofs

open Sys2Proof Sys2Proof.Machine

/-- Whatever the encoder's registers, OBUF and CRES become, the rest of the block is the same. -/
theorem encoder_frame (s : State) (obuf : Memory) (wc : Half) (ea eb : Byte) (efcnt ewcnt : Half) (advLen : Bool)
    (estate : EState) (cres : ResultCode) :
    let t := { s with
      obuf := obuf, wc := wc, ea := ea, eb := eb, efcnt := efcnt, ewcnt := ewcnt, advLen := advLen, estate := estate
      cres := cres }
    SameOperands s t ∧ SameDecoder s t ∧ SameQueries s t ∧ SameOutside s t :=
  ⟨⟨rfl, rfl, rfl, rfl, rfl, rfl, rfl⟩,
    ⟨⟨rfl, ibufByte_congr rfl rfl⟩, ⟨rfl, rfl, rfl, rfl, rfl, rfl, rfl⟩, ⟨rfl, fun _ => ⟨rfl, rfl⟩⟩, ⟨rfl, rfl, rfl⟩⟩,
    ⟨rfl, rfl⟩, ⟨rfl, rfl⟩⟩

/-- A usage error changes CRES alone (R401). -/
theorem usageError_onlyCres (code : ResultCode) (s : State) : OnlyCres s (usageError code s) := by
  obtain ⟨operands, decoder, queries, outside⟩ :=
    encoder_frame s s.obuf s.wc s.ea s.eb s.efcnt s.ewcnt s.advLen s.estate code
  exact ⟨operands, ⟨⟨rfl, rfl, rfl, rfl, rfl, rfl, rfl⟩, obufByte_congr rfl rfl⟩, decoder, queries, outside⟩

theorem exec_encBegin (s : State) : exec .encBegin s = .next (encBegin defaultParams s) := rfl

theorem exec_encField (s : State) : exec .encField s = .next (encField defaultParams s) := rfl

theorem exec_encEnd (s : State) : exec .encEnd s = .next (encEnd defaultParams s) := rfl

/-- Settles O26: the new message is one byte of OBUF, written at offset 0. -/
theorem encBeginStartsAMessage : Obligations.EncBeginStartsAMessage := by
  unfold Obligations.EncBeginStartsAMessage
  intro s
  refine ⟨_, exec_encBegin s, ?_⟩
  rw [encBegin_eq defaultParams s (by decide)]
  refine ⟨?stx, rfl, rfl, rfl, rfl, rfl, rfl, rfl, rfl, fun a ha => ?others, encoder_frame s _ _ _ _ _ _ _ _ _⟩
  case stx => simp only [obufByte, lookup_insert_self, Option.getD_some]
  case others => simp only [obufByte, lookup_insert_of_ne s.obuf 0x02 (Ne.symm ha)]

/-- ENC_FIELD with a message open, for an identifier that is unregistered or a framing identifier (R264, R265). -/
theorem encField_of_no_field {C : Params} {s : State} (ho : s.estate = .eOpen)
    (hid : C.reg s.opId = none ∨ s.opId = Config.stx ∨ s.opId = Config.etx) :
    encField C s = encSkip (if C.reg s.opId = none then .unknownField else .invalidFieldValue) s := by
  rw [encField, if_pos ho]
  cases hd : C.reg s.opId with
  | none => rfl
  | some d =>
    have hframing : s.opId = Config.stx ∨ s.opId = Config.etx := by simpa [hd] using hid
    simp only [if_pos hframing]
    rfl

/-- Settles O28: a skip writes EWCNT and CRES. -/
theorem unregisteredAndFramingTagsAreSkipped : Obligations.UnregisteredAndFramingTagsAreSkipped := by
  unfold Obligations.UnregisteredAndFramingTagsAreSkipped
  intro s ho hid
  refine ⟨_, exec_encField s, ?_⟩
  rw [encField_of_no_field (C := defaultParams) ho hid]
  exact ⟨rfl, satInc_toNat s.ewcnt, rfl, rfl, rfl, rfl, rfl, rfl, obufByte_congr rfl rfl,
    encoder_frame s s.obuf s.wc s.ea s.eb s.efcnt (satInc s.ewcnt) s.advLen s.estate _⟩

/-- Settles O31: ENC_END writes its three bytes behind the message; the message with nothing emitted is the one that
ENC_BEGIN opens. -/
theorem encEndFinishesTheMessage : Obligations.EncEndFinishesTheMessage := by
  unfold Obligations.EncEndFinishesTheMessage
  refine ⟨fun s ho hfit => ?finish, fun s ho => ?notOpen, fun s => ?empty⟩
  case finish =>
    obtain ⟨m, heq, hm, -⟩ := encEnd_eq (C := defaultParams) ho hfit (by decide)
    refine ⟨_, exec_encEnd s, ?_⟩
    rw [heq]
    have hwc : (BitVec.ofNat 16 (s.wc.toNat + 3)).toNat = s.wc.toNat + 3 := by
      rw [BitVec.toNat_ofNat]
      omega
    refine ⟨hwc, rfl, rfl, obufRead_placed (s := s) (vs := [0x03, s.ea + 0x03, s.eb + (s.ea + 0x03)]) rfl hm,
      fun a ha => ?others, ?advice, rfl, rfl, rfl, rfl, encoder_frame s _ _ _ _ _ _ _ _ _⟩
    case others =>
      refine obufByte_not_placed (a := s.wc.toNat) (vs := [0x03, s.ea + 0x03, s.eb + (s.ea + 0x03)]) ?_ hm ha
      rfl
    case advice =>
      rw [hwc]
      rfl
  case notOpen =>
    refine ⟨_, exec_encEnd s, ?_⟩
    rw [encEnd_of_not_open ho]
    exact ⟨rfl, usageError_onlyCres .sequenceError s⟩
  case empty =>
    obtain ⟨hwc, hbytes, -⟩ := (encBegin_openWith (C := defaultParams) s (by decide)).finish (by decide)
    refine ⟨_, _, exec_encBegin s, exec_encEnd _, ?_⟩
    rw [hwc]
    exact hbytes

end Sys2Proof.Proofs
end

section
/-! PROOFS. The encoder as a function of its operand tuples (R293, R294 of 43_encoder.md): the entries that a run of ENC_BEGIN,
ENC_FIELDs and ENC_END sends, the CRES of each tuple, and the message they form. -/

namespace Sys2Proof.Proofs

open Sys2Proof Sys2Proof.Machine

/-! ### Entries and their lengths -/

/-- A binary32 scalar is four bytes wide (R146). -/
theorem width_of_wf_float {d : Record} {w : Width} {signed : Bool} (h : d.wf = true) (hty : d.type = .scalar w signed true) :
    w = .four := by
  simp only [Record.wf, hty, Bool.and_eq_true, decide_eq_true_eq] at h
  exact h.1.1

/-- A payload of a well-formed record has the record's length (R96, R266). -/
theorem payloadOf_length {s : State} {d : Record} {p : List Byte} (hwf : d.wf = true) (hp : payloadOf d s = some p) :
    p.length = paylen d.type := by
  have hcount := typeCount_le_of_wf hwf
  cases hty : d.type with
  | marker =>
    obtain ⟨-, rfl⟩ := (payloadOf_marker hty p).mp hp
    rfl
  | scalar w signed isFloat =>
    cases isFloat with
    | true =>
      obtain ⟨-, rfl⟩ := (payloadOf_float hty p).mp hp
      obtain rfl := width_of_wf_float hwf hty
      exact leBytes_length 4 _
    | false =>
      obtain ⟨x, -, hx⟩ := (payloadOf_integer hty p).mp hp
      obtain ⟨raw, -, -, -, -, rfl⟩ := (intPayload_eq_some ..).mp hx
      exact Machine.leBytesInt_length _ raw
  | fixedArray ew c =>
    obtain ⟨-, -, -, rfl⟩ := (payloadOf_array hty p).mp hp
    rw [hty, typeCount] at hcount
    rw [flatMap_leBytes_length, List.length_take, Vector.length_toList, Nat.min_eq_left hcount, paylen]
  | dateTime =>
    obtain ⟨-, -, -, -, rfl⟩ := (payloadOf_dateTime hty p).mp hp
    simp [paylen]

/-- What an accepted tuple is: a field of the registry with a valid operand (R263 lines 3 to 7). -/
theorem acceptedEntry_eq_some {C : Params} {o : Operand} {e : Byte × List Byte} (h : acceptedEntry C o = some e) :
    ∃ d p, C.reg o.id = some d ∧ o.id ≠ Config.etx ∧ payloadOf d (loadOperand o State.reset) = some p ∧ e = (o.id, p) := by
  unfold acceptedEntry at h
  cases hd : C.reg o.id with
  | none => simp [hd] at h
  | some d =>
    by_cases hf : o.id = Config.stx ∨ o.id = Config.etx
    · simp only [hd, if_pos hf] at h
      cases h
    · simp only [hd, if_neg hf, Option.map_eq_some_iff] at h
      obtain ⟨p, hp, rfl⟩ := h
      exact ⟨d, p, rfl, fun he => hf (.inr he), hp, rfl⟩

theorem entryFits_of_acceptedEntry {C : Params} {o : Operand} {e : Byte × List Byte} (hwf : C.wf = true)
    (h : acceptedEntry C o = some e) : EntryFits C e := by
  obtain ⟨d, p, hd, hne, hp, rfl⟩ := acceptedEntry_eq_some h
  exact ⟨hne, d, hd, payloadOf_length (record_wf_of_wf hwf hd) hp⟩

theorem mem_acceptedEntries {C : Params} {os : List Operand} {e : Byte × List Byte} :
    e ∈ acceptedEntries C os ↔ ∃ o ∈ os, acceptedEntry C o = some e :=
  List.mem_filterMap

theorem entryFits_of_mem_acceptedEntries {C : Params} {os : List Operand} (hwf : C.wf = true) :
    ∀ e ∈ acceptedEntries C os, EntryFits C e := by
  intro e he
  obtain ⟨o, -, ho⟩ := mem_acceptedEntries.mp he
  exact entryFits_of_acceptedEntry hwf ho

theorem entriesBytes_cons (e : Byte × List Byte) (es : List (Byte × List Byte)) :
    entriesBytes (e :: es) = e.1 :: e.2 ++ entriesBytes es := rfl

theorem entriesBytes_length (es : List (Byte × List Byte)) : (entriesBytes es).length = entriesLength es := by
  simp [entriesBytes, entriesLength, List.length_flatMap, Nat.add_comm]

theorem messageBytes_length (es : List (Byte × List Byte)) : (messageBytes es).length = 4 + entriesLength es := by
  simp only [messageBytes, spanBytes, List.length_append, List.length_cons, List.length_nil, entriesBytes_length]
  omega

/-! ### One tuple -/

/-- With room, the answer is OK exactly for an accepted tuple (R280). -/
theorem fieldCode_eq_ok_iff (C : Params) (o : Operand) : fieldCode C o = .ok ↔ (acceptedEntry C o).isSome = true := by
  unfold fieldCode
  cases hd : C.reg o.id with
  | none => simp [acceptedEntry, hd]
  | some d => cases hacc : (acceptedEntry C o).isSome <;> simp

/-- ENC_FIELD of a tuple while a message is open: the tuple is not acceptable, or its entry does not fit, or the entry is
appended (R263). -/
theorem encField_openWith {C : Params} {body : List Byte} {s : State} (h : OpenWith C body s) (hsize : C.obufSize < 65536)
    (o : Operand) :
    (acceptedEntry C o = none ∧ (encField C (loadOperand o s)).cres = fieldCode C o
        ∧ OpenWith C body (encField C (loadOperand o s)))
    ∨ (∃ e, acceptedEntry C o = some e ∧ C.obufSize < 4 + body.length + (1 + e.2.length)
        ∧ (encField C (loadOperand o s)).cres = .bufferOverflow ∧ OpenWith C body (encField C (loadOperand o s)))
    ∨ (∃ e, acceptedEntry C o = some e ∧ (encField C (loadOperand o s)).cres = .ok
        ∧ OpenWith C (body ++ e.1 :: e.2) (encField C (loadOperand o s))) := by
  have hcursor := h.cursor
  rw [encField_loadOperand o h.isOpen]
  cases hacc : acceptedEntry C o with
  | none => exact .inl ⟨rfl, rfl, h.skip _ o⟩
  | some e =>
    right
    by_cases hfull : C.obufSize < s.wc.toNat + 1 + e.2.length + 3
    · left
      simp only [if_pos hfull]
      exact ⟨e, rfl, by omega, rfl, h.skip _ o⟩
    · right
      simp only [if_neg hfull]
      exact ⟨e, rfl, rfl, h.emit (e.1 :: e.2) o (by rw [List.length_cons]; omega) hsize⟩

/-! ### A list of tuples -/

/-- The entries of the tuples that a run answers with OK. -/
def sentEntries (C : Params) (os : List Operand) (s : State) : List (Byte × List Byte) :=
  acceptedEntries C (okOperands os (encodeCodes C os s))

theorem encodeFields_cons (C : Params) (o : Operand) (os : List Operand) (s : State) :
    encodeFields C (o :: os) s =
      ((encField C (loadOperand o s)).cres :: (encodeFields C os (encField C (loadOperand o s))).1,
        (encodeFields C os (encField C (loadOperand o s))).2) := rfl

theorem okOperands_cons_ok (o : Operand) (os : List Operand) (cs : List ResultCode) :
    okOperands (o :: os) (.ok :: cs) = o :: okOperands os cs := rfl

theorem okOperands_cons_of_ne {c : ResultCode} (h : c ≠ .ok) (o : Operand) (os : List Operand) (cs : List ResultCode) :
    okOperands (o :: os) (c :: cs) = okOperands os cs := by
  simp [okOperands, h]

theorem acceptedEntries_cons_none {C : Params} {o : Operand} (h : acceptedEntry C o = none) (os : List Operand) :
    acceptedEntries C (o :: os) = acceptedEntries C os :=
  List.filterMap_cons_none h

theorem acceptedEntries_cons_some {C : Params} {o : Operand} {e : Byte × List Byte} (h : acceptedEntry C o = some e)
    (os : List Operand) : acceptedEntries C (o :: os) = e :: acceptedEntries C os :=
  List.filterMap_cons_some h

/-- The open message after some tuples: what it held, then the entries of the tuples answered with OK. -/
theorem encodeFields_openWith {C : Params} (hsize : C.obufSize < 65536) (os : List Operand) {body : List Byte} {s : State}
    (h : OpenWith C body s) :
    OpenWith C (body ++ entriesBytes (acceptedEntries C (okOperands os (encodeFields C os s).1)))
      (encodeFields C os s).2 := by
  induction os generalizing body s with
  | nil => simpa [encodeFields, okOperands, acceptedEntries, entriesBytes] using h
  | cons o os ih =>
    rw [encodeFields_cons]
    rcases encField_openWith h hsize o with ⟨hnone, hcode, ht⟩ | ⟨e, -, -, hcode, ht⟩ | ⟨e, hsome, hcode, ht⟩
    · have hne : fieldCode C o ≠ .ok := by simp [fieldCode_eq_ok_iff, hnone]
      rw [hcode, okOperands_cons_of_ne hne]
      exact ih ht
    · rw [hcode, okOperands_cons_of_ne (c := .bufferOverflow) nofun]
      exact ih ht
    · rw [hcode, okOperands_cons_ok, acceptedEntries_cons_some hsome, entriesBytes_cons, ← List.append_assoc]
      exact ih ht

/-- With room for all accepted entries, every tuple is answered by what it is alone (R294). -/
theorem encodeFields_codes_of_fit {C : Params} (hsize : C.obufSize < 65536) (os : List Operand) {body : List Byte}
    {s : State} (h : OpenWith C body s) (hfit : 4 + body.length + entriesLength (acceptedEntries C os) ≤ C.obufSize) :
    (encodeFields C os s).1 = os.map (fieldCode C) := by
  induction os generalizing body s with
  | nil => rfl
  | cons o os ih =>
    rw [encodeFields_cons, List.map_cons]
    rcases encField_openWith h hsize o with ⟨hnone, hcode, ht⟩ | ⟨e, hsome, hfull, -, -⟩ | ⟨e, hsome, hcode, ht⟩
    · rw [acceptedEntries_cons_none hnone] at hfit
      rw [hcode, ih ht hfit]
    · rw [acceptedEntries_cons_some hsome, entriesLength, List.map_cons, List.sum_cons] at hfit
      omega
    · rw [acceptedEntries_cons_some hsome, entriesLength, List.map_cons, List.sum_cons] at hfit
      have hok : fieldCode C o = .ok := by simp [fieldCode_eq_ok_iff, hsome]
      rw [hcode, hok, ih ht (by rw [List.length_append, List.length_cons, entriesLength]; omega)]

/-- Dropping the tuples that are not acceptable drops no entry. -/
theorem acceptedEntries_okOperands_map_fieldCode (C : Params) (os : List Operand) :
    acceptedEntries C (okOperands os (os.map (fieldCode C))) = acceptedEntries C os := by
  induction os with
  | nil => rfl
  | cons o os ih =>
    have hok := fieldCode_eq_ok_iff C o
    rw [List.map_cons]
    cases hacc : acceptedEntry C o with
    | none =>
      have hne : fieldCode C o ≠ .ok := by simp [hok, hacc]
      rw [okOperands_cons_of_ne hne, ih, acceptedEntries_cons_none hacc]
    | some e =>
      rw [hok.mpr (by simp [hacc]), okOperands_cons_ok, acceptedEntries_cons_some hacc, ih, acceptedEntries_cons_some hacc]

/-! ### The whole message -/

/-- Whatever the tuples and however full the buffer: the message is that of the entries sent, it fits, and ADV_LEN tells
whether it is longer than 340 bytes (R293, R290). -/
theorem encodeRun_sends {C : Params} (hwf : C.wf = true) (os : List Operand) (s : State) :
    encodeBytes C os s = messageBytes (sentEntries C os s)
      ∧ (encodeRun C os s).advLen = decide (340 < 4 + entriesLength (sentEntries C os s))
      ∧ 4 + entriesLength (sentEntries C os s) ≤ C.obufSize := by
  obtain ⟨-, -, hmin, hmax⟩ := sizes_of_wf hwf
  have hsize : C.obufSize < 65536 := by omega
  have hopen : OpenWith C (entriesBytes (sentEntries C os s)) (encodeFields C os (encBegin C s)).2 :=
    encodeFields_openWith hsize os (encBegin_openWith s hmin)
  obtain ⟨hwc, hbytes, hadv, -⟩ := hopen.finish hsize
  have hroom := hopen.room
  rw [entriesBytes_length] at hadv hroom
  refine ⟨?_, ?_, by omega⟩
  · rw [encodeBytes, encodeRun, hwc]
    exact hbytes
  · rw [encodeRun, hadv, Nat.add_comm]

/-- With room for all accepted entries, they are the entries sent. -/
theorem encode_of_fit {C : Params} (hwf : C.wf = true) (os : List Operand) (s : State)
    (hfit : 4 + entriesLength (acceptedEntries C os) ≤ C.obufSize) :
    encodeCodes C os s = os.map (fieldCode C) ∧ sentEntries C os s = acceptedEntries C os := by
  obtain ⟨-, -, hmin, hmax⟩ := sizes_of_wf hwf
  have hcodes : encodeCodes C os s = os.map (fieldCode C) :=
    encodeFields_codes_of_fit (by omega) os (encBegin_openWith s hmin) (by simpa using hfit)
  exact ⟨hcodes, by rw [sentEntries, hcodes, acceptedEntries_okOperands_map_fieldCode]⟩

/-- Settles O37: with room, the entries sent are those of all acceptable tuples. -/
theorem encodeMessageIsTheFramedEntries : Obligations.EncodeMessageIsTheFramedEntries := by
  unfold Obligations.EncodeMessageIsTheFramedEntries
  intro C os s hwf hfit
  obtain ⟨hcodes, hsent⟩ := encode_of_fit hwf os s hfit
  obtain ⟨hbytes, hadv, -⟩ := encodeRun_sends hwf os s
  rw [hsent] at hbytes hadv
  exact ⟨hbytes, hcodes, hadv, by rw [hbytes, messageBytes_length], entryFits_of_mem_acceptedEntries hwf⟩

/-- Settles O39: the entries that were sent fit, so a run over their tuples alone sends them all again. -/
theorem skippedFieldsLeaveNoTrace : Obligations.SkippedFieldsLeaveNoTrace := by
  unfold Obligations.SkippedFieldsLeaveNoTrace
  intro C os s s' hwf
  obtain ⟨hbytes, -, hfit⟩ := encodeRun_sends hwf os s
  obtain ⟨hbytes', -, -⟩ := encodeRun_sends hwf (okOperands os (encodeCodes C os s)) s'
  rw [hbytes, hbytes', (encode_of_fit hwf (okOperands os (encodeCodes C os s)) s' hfit).2, sentEntries]

end Sys2Proof.Proofs
end

section
/-! PROOFS. The round trip (R295 of 43_encoder.md): the slot that the decoder forms from an accepted payload says what the
operand said, and a decode of the finished message stores that slot. -/

namespace Sys2Proof.Proofs

open Sys2Proof Sys2Proof.Machine

/-! ### Integer scalars -/

/-- The bytes of a raw value read back as its residue (R101, R276). -/
theorem leUint_leBytesInt (w : Nat) (v : Int) : (leUint (leBytesInt w v) : Int) = v % (2 : Int) ^ (8 * w) := by
  have hpos : (0 : Int) < 2 ^ (8 * w) := by positivity
  have hnonneg := Int.emod_nonneg v (ne_of_gt hpos)
  have hlt := Int.emod_lt_of_pos v hpos
  have hpow : (256 : Nat) ^ w = 2 ^ (8 * w) := by rw [Nat.pow_mul]
  have hsmall : (v % (2 : Int) ^ (8 * w)).toNat < 2 ^ (8 * w) := by
    rw [Int.toNat_lt hnonneg]
    exact_mod_cast hlt
  rw [leBytesInt, leUint_leBytes, hpow, Nat.mod_eq_of_lt hsmall, Int.toNat_of_nonneg hnonneg]

/-- `to_signed` of R11 undoes the reduction of a value in the signed range of `w` bytes. -/
theorem toSigned_of_emod {w x : Nat} {v : Int} (hw : 0 < w) (hx : (x : Int) = v % (2 : Int) ^ (8 * w))
    (hlo : -(2 : Int) ^ (8 * w - 1) ≤ v) (hhi : v ≤ (2 : Int) ^ (8 * w - 1) - 1) : toSigned w x = v := by
  have hdouble : (2 : Int) ^ (8 * w) = 2 * 2 ^ (8 * w - 1) := by rw [← pow_succ', Nat.sub_add_cancel (by omega)]
  have hcast : ((2 ^ (8 * w - 1) : Nat) : Int) = (2 : Int) ^ (8 * w - 1) := by push_cast; rfl
  unfold toSigned
  rcases Int.lt_or_le v 0 with hneg | hnonneg
  · have hmod : (x : Int) = v + (2 : Int) ^ (8 * w) := by
      rw [hx, ← Int.add_emod_right, Int.emod_eq_of_lt (by omega) (by omega)]
    rw [if_pos (by omega)]
    omega
  · have hmod : (x : Int) = v := by rw [hx, Int.emod_eq_of_lt hnonneg (by omega)]
    rw [if_neg (by omega), hmod]

/-- The signed types lie inside a signed word, the unsigned ones inside an unsigned word (R8, R274). -/
theorem typeRange_in_word (w : Width) :
    -(2 : Int) ^ 31 ≤ tmin w true ∧ tmax w true < (2 : Int) ^ 31 ∧ tmax w false < (2 : Int) ^ 32 := by
  cases w <;> decide

theorem widthBytes_pos (w : Width) : 0 < widthBytes w := by
  cases w <;> decide

/-- A raw value in the type's range is the one that the decoded slot holds (R37, R341, R342). -/
theorem rawValue_slotOf {w : Width} {signed : Bool} {raw : Int} (hlo : tmin w signed ≤ raw) (hhi : raw ≤ tmax w signed) :
    rawValue (.scalar w signed false) (slotOf (.scalar w signed false) (leBytesInt (widthBytes w) raw)) = raw := by
  have hbytes := leUint_leBytesInt (widthBytes w) raw
  obtain ⟨hleast, hgreatest, hunsigned⟩ := typeRange_in_word w
  cases signed with
  | true =>
    change (BitVec.ofInt 32 (toSigned (widthBytes w) (leUint (leBytesInt (widthBytes w) raw)))).toInt = raw
    rw [toSigned_of_emod (widthBytes_pos w) hbytes hlo hhi]
    exact BitVec.toInt_ofInt_eq_self (by decide) (hleast.trans hlo) (hhi.trans_lt hgreatest)
  | false =>
    change ((BitVec.ofNat 32 (leUint (leBytesInt (widthBytes w) raw))).toNat : Int) = raw
    have hlt : raw < (2 : Int) ^ (8 * widthBytes w) := Int.lt_of_le_sub_one hhi
    rw [Int.emod_eq_of_lt hlo hlt] at hbytes
    rw [BitVec.toNat_ofNat]
    omega

/-- The two halves of a loaded mantissa are the mantissa (R25). -/
theorem opMant_loadOperand (o : Operand) (s : State) : opMant (loadOperand o s) = o.mant := by
  apply BitVec.eq_of_toNat_eq
  rw [opMant, toNat_append_eq_add, loadOperand_opMantLo, loadOperand_opMantHi, BitVec.toNat_setWidth, BitVec.toNat_setWidth,
    BitVec.toNat_ushiftRight, Nat.shiftRight_eq_div_pow]
  omega

/-- An accepted tuple of an integer scalar: its payload packs a raw integer of the value it stands for. -/
theorem payloadOf_integer_operand {d : Record} {w : Width} {signed : Bool} {o : Operand} {s : State} {p : List Byte}
    (hty : d.type = .scalar w signed false) (hp : payloadOf d (loadOperand o s) = some p) :
    ∃ raw, IsRawOf d.scale (operandValue o) raw ∧ tmin w signed ≤ raw ∧ raw ≤ tmax w signed
      ∧ p = leBytesInt (widthBytes w) raw := by
  obtain ⟨x, hop, hx⟩ := (payloadOf_integer hty p).mp hp
  obtain ⟨raw, hraw, hlo, hhi, -, rfl⟩ := (intPayload_eq_some ..).mp hx
  rw [rawOf_eq_some, opMant_loadOperand] at hraw
  rw [loadOperand_opKind, loadOperand_opExp] at hop
  have hvalue : operandValue o = o.mant.toInt * (10 : ℚ) ^ x := by
    rcases hop with ⟨hk, rfl⟩ | ⟨hk, rfl⟩ <;> simp [operandValue, hk]
  exact ⟨raw, hvalue ▸ hraw, hlo, hhi, rfl⟩

/-- Rounding in units of `u` is off by at most half a unit. -/
theorem abs_rounded_mul_sub_le {q u : ℚ} (hu : 0 < u) : |(⌊q / u + 1 / 2⌋ : ℚ) * u - q| ≤ u / 2 := by
  have hround := abs_sub_round (q / u)
  rw [round_eq, abs_sub_comm] at hround
  calc |(⌊q / u + 1 / 2⌋ : ℚ) * u - q| = |(⌊q / u + 1 / 2⌋ : ℚ) - q / u| * u := by
        rw [← abs_of_pos hu, ← abs_mul, abs_of_pos hu, sub_mul, div_mul_cancel₀ q (ne_of_gt hu)]
    _ ≤ 1 / 2 * u := mul_le_mul_of_nonneg_right hround hu.le
    _ = u / 2 := by ring

/-! ### Elements -/

theorem payloadElem_zero (w v : Nat) (ys : List Byte) :
    payloadElem (leBytes w v ++ ys) w 0 = BitVec.ofNat 32 (leUint (leBytes w v)) := by
  rw [payloadElem, Nat.zero_mul, List.drop_zero, take_leBytes_append]

theorem payloadElem_succ (w v i : Nat) (ys : List Byte) :
    payloadElem (leBytes w v ++ ys) w (i + 1) = payloadElem ys w i := by
  rw [payloadElem, Nat.succ_mul, Nat.add_comm, ← List.drop_drop, drop_leBytes_append, payloadElem]

/-- An element that its width holds reads back from its bytes. -/
theorem word_of_leBytes_of_lt {w : Nat} {u : Word} (h : u.toNat < 2 ^ (8 * w)) :
    BitVec.ofNat 32 (leUint (leBytes w u.toNat)) = u := by
  rw [Nat.pow_mul] at h
  rw [leUint_leBytes, Nat.mod_eq_of_lt h, BitVec.ofNat_toNat, BitVec.setWidth_eq]

/-- The elements of a payload are those it was packed from (R278, R343). -/
theorem map_payloadElem_flatMap {w : Nat} (es : List Word) (h : ∀ e ∈ es, e.toNat < 2 ^ (8 * w)) :
    (List.range es.length).map (payloadElem (es.flatMap fun e => leBytes w e.toNat) w) = es := by
  induction es with
  | nil => rfl
  | cons e es ih =>
    have hhead := word_of_leBytes_of_lt (h e List.mem_cons_self)
    have htail := ih fun x hx => h x (List.mem_cons_of_mem e hx)
    rw [List.length_cons, List.range_succ_eq_map, List.map_cons, List.map_map, List.flatMap_cons, payloadElem_zero, hhead]
    simp only [Function.comp_def, Nat.succ_eq_add_one, payloadElem_succ]
    rw [htail]

/-- The slot of an accepted array or record holds the operand's elements, as many as it counts (R343, R344). -/
theorem slotOf_array_payload {d : Record} {ew : Width} {c : Nat} {o : Operand} {s : State} {p : List Byte} (hc : c ≤ 8)
    (hty : d.type = .fixedArray ew c) (hp : payloadOf d (loadOperand o s) = some p) :
    o.n.toNat = c ∧ slotOf (.fixedArray ew c) p = slotOfElems (o.elems.toList.take c) := by
  obtain ⟨-, hn, hsmall, rfl⟩ := (payloadOf_array hty p).mp hp
  have helems := map_payloadElem_flatMap (o.elems.toList.take c) hsmall
  rw [List.length_take, Vector.length_toList, Nat.min_eq_left hc] at helems
  exact ⟨hn, congrArg slotOfElems helems⟩

theorem slotOf_dateTime_payload {d : Record} {o : Operand} {s : State} {p : List Byte} (hty : d.type = .dateTime)
    (hp : payloadOf d (loadOperand o s) = some p) :
    o.n.toNat = 6 ∧ slotOf .dateTime p = slotOfElems (o.elems.toList.take 6) := by
  obtain ⟨-, hn, hyear, hsmall, rfl⟩ := (payloadOf_dateTime hty p).mp hp
  have hfirst := word_of_leBytes_of_lt (w := 2) hyear
  have hrest := map_payloadElem_flatMap (w := 1) _ hsmall
  have hbytes (es : List Word) : (es.map fun e => BitVec.ofNat 8 e.toNat) = es.flatMap fun e => leBytes 1 e.toNat :=
    List.map_eq_flatMap
  have hfive : ((o.elems.toList.drop 1).take 5).length = 5 := by simp
  have hsix : o.elems.toList.take 6 = o.elems.toList.getD 0 0 :: (o.elems.toList.drop 1).take 5 := by
    rw [toList_eq_map_finRange]
    rfl
  refine ⟨hn, ?_⟩
  rw [loadOperand_ope] at hfirst hrest ⊢
  rw [hfive] at hrest
  rw [hsix, slotOf, take_leBytes_append, drop_leBytes_append, hbytes, hfirst, hrest]

/-- A slot made of the first `n` elements of an operand reads as they do. -/
theorem slotOfElems_take {v : Vector Word 8} {n : BitVec 4} (hn : n.toNat ≤ 8) :
    (slotOfElems (v.toList.take n.toNat)).n = n
      ∧ ∀ k : Fin 8, k.val < (slotOfElems (v.toList.take n.toNat)).n.toNat →
        (slotOfElems (v.toList.take n.toNat)).e[k] = v[k] := by
  have hcount : (slotOfElems (v.toList.take n.toNat)).n = n := by
    rw [slotOfElems_n, List.length_take, Vector.length_toList, Nat.min_eq_left hn, BitVec.ofNat_toNat, BitVec.setWidth_eq]
  refine ⟨hcount, fun k hk => ?_⟩
  rw [hcount] at hk
  rw [slotOfElems_e]
  simp [hk]

/-! ### One field -/

/-- The slot formed from the payload of an accepted tuple says what the tuple said, for every field type (R295). -/
theorem roundTrips_slotOf {d : Record} {o : Operand} {s : State} {p : List Byte} (hwf : d.wf = true)
    (hp : payloadOf d (loadOperand o s) = some p) : RoundTrips d o (slotOf d.type p) := by
  have hcount := typeCount_le_of_wf hwf
  obtain ⟨name, ty, scale, range⟩ := d
  cases ty with
  | marker => exact rfl
  | scalar w signed isFloat =>
    cases isFloat with
    | true =>
      obtain ⟨-, rfl⟩ := (payloadOf_float rfl p).mp hp
      cases signed <;> exact word_of_leBytes (o.mant.setWidth 32)
    | false =>
      obtain ⟨raw, hraw, hlo, hhi, rfl⟩ := payloadOf_integer_operand rfl hp
      have hslot := rawValue_slotOf hlo hhi
      cases scale with
      | none =>
        change (rawValue _ _ : ℚ) = _ ∧ (rawValue _ _ : ℚ) = _
        rw [hslot]
        exact ⟨hraw, hraw⟩
      | some k =>
        change rawValue _ _ = _ ∧ |(rawValue _ _ : ℚ) * (10 : ℚ) ^ k - _| ≤ _
        rw [hslot]
        obtain rfl : raw = ⌊operandValue o / (10 : ℚ) ^ k + 1 / 2⌋ := hraw
        exact ⟨rfl, abs_rounded_mul_sub_le (by positivity)⟩
  | fixedArray ew c =>
    obtain ⟨rfl, hslot⟩ := slotOf_array_payload (c := c) hcount rfl hp
    change RoundTrips _ o (slotOf (.fixedArray ew o.n.toNat) p)
    rw [hslot]
    exact slotOfElems_take hcount
  | dateTime =>
    obtain ⟨hn, hslot⟩ := slotOf_dateTime_payload rfl hp
    rw [hslot, ← hn]
    exact slotOfElems_take (by omega)

/-! ### The slot of one tag -/

/-- The store after one more entry (R345). -/
def storeOne (C : Params) (m : ResultStore) (e : Byte × List Byte) : ResultStore :=
  match C.reg e.1 with
  | some d => insert m e.1.toNat (slotOf d.type e.2)
  | none => m

theorem entriesStore_eq_foldl_storeOne (C : Params) (es : List (Byte × List Byte)) :
    entriesStore C es = es.foldl (storeOne C) [] := rfl

theorem lookup_storeOne_self {C : Params} {tag : Byte} {d : Record} (hd : C.reg tag = some d) (m : ResultStore)
    (p : List Byte) : lookup (storeOne C m (tag, p)) tag.toNat = some (slotOf d.type p) := by
  simp only [storeOne, hd, lookup_insert_self]

theorem lookup_storeOne_of_ne {C : Params} {e : Byte × List Byte} {tag : Byte} (h : e.1 ≠ tag) (m : ResultStore) :
    lookup (storeOne C m e) tag.toNat = lookup m tag.toNat := by
  unfold storeOne
  cases C.reg e.1 with
  | none => rfl
  | some d => exact lookup_insert_of_ne m _ fun heq => h (BitVec.eq_of_toNat_eq heq)

/-- Entries that have other tags, or that repeat what is stored, leave the slot of a tag as it is. -/
theorem lookup_foldl_storeOne {C : Params} {tag : Byte} {d : Record} {p : List Byte} (hd : C.reg tag = some d)
    (es : List (Byte × List Byte)) (huniq : ∀ e ∈ es, e.1 = tag → e = (tag, p)) {m : ResultStore}
    (hm : lookup m tag.toNat = some (slotOf d.type p)) :
    lookup (es.foldl (storeOne C) m) tag.toNat = some (slotOf d.type p) := by
  induction es generalizing m with
  | nil => exact hm
  | cons e es ih =>
    refine ih (fun x hx => huniq x (List.mem_cons_of_mem e hx)) ?_
    by_cases htag : e.1 = tag
    · rw [huniq e List.mem_cons_self htag]
      exact lookup_storeOne_self hd m p
    · rw [lookup_storeOne_of_ne htag, hm]

/-- The slot of a tag that only one payload is sent under (R345). -/
theorem lookup_entriesStore {C : Params} {tag : Byte} {d : Record} {p : List Byte} {es : List (Byte × List Byte)}
    (hd : C.reg tag = some d) (hmem : (tag, p) ∈ es) (huniq : ∀ e ∈ es, e.1 = tag → e = (tag, p)) :
    lookup (entriesStore C es) tag.toNat = some (slotOf d.type p) := by
  obtain ⟨before, after, rfl⟩ := List.append_of_mem hmem
  rw [entriesStore_eq_foldl_storeOne, List.foldl_append, List.foldl_cons]
  exact lookup_foldl_storeOne hd after (fun e he => huniq e (by simp [he])) (lookup_storeOne_self hd _ p)

/-! ### The decode of a finished message -/

/-- The host's byte writes of an input that fits are the bytes placed in IBUF (R350). -/
theorem loadBytes_eq_writeBytes {C : Params} (vs : List Byte) (m : Memory) (a : Nat) (h : a + vs.length ≤ C.ibufSize) :
    loadBytes C m a vs = writeBytes m a vs := by
  induction vs generalizing m a with
  | nil => rfl
  | cons v vs ih =>
    rw [List.length_cons] at h
    rw [loadBytes, writeBytes, bufWrite, if_pos (by omega), ih _ _ (by omega)]

/-- A loaded input that fits reads back whole. -/
theorem ibufRead_loadInput {C : Params} {buf : List Byte} (s : State) (h : buf.length ≤ C.ibufSize) :
    ibufRead (loadInput C buf s) 0 buf.length = buf := by
  apply List.ext_getElem (ibufRead_length _ _ _)
  intro i hi hi'
  have hbuf : (loadInput C buf s).ibuf = writeBytes s.ibuf 0 buf := loadBytes_eq_writeBytes buf s.ibuf 0 (by omega)
  rw [ibufRead_getElem, ibufByte, hbuf, lookup_writeBytes, if_pos (by omega), Nat.zero_add, Nat.sub_zero,
    List.getElem?_eq_getElem hi', Option.getD_some]

theorem loadInput_ilen {C : Params} {buf : List Byte} (s : State) (h : buf.length ≤ C.ibufSize) (hsize : C.ibufSize < 65536) :
    (loadInput C buf s).ilen.toNat = buf.length := by
  rw [loadInput, Nat.min_eq_left h, BitVec.toNat_ofNat]
  omega

theorem spanBytes_length (es : List (Byte × List Byte)) : (spanBytes es).length = (entriesBytes es).length + 2 := by
  simp [spanBytes]

/-- The bytes behind STX in a message: the entries, then the trailer. -/
theorem messageBytes_eq_cons (es : List (Byte × List Byte)) :
    messageBytes es = Config.stx :: (entriesBytes es
      ++ [Config.etx, (fletcher (spanBytes es)).1, (fletcher (spanBytes es)).2]) := by
  simp [messageBytes, spanBytes]

theorem ilen_of_message {s : State} {es : List (Byte × List Byte)} (hin : ibufRead s 0 s.ilen.toNat = messageBytes es) :
    s.ilen.toNat = (entriesBytes es).length + 4 := by
  rw [← ibufRead_length s 0 s.ilen.toNat, hin, messageBytes_length, entriesBytes_length, Nat.add_comm]

/-- The loop over entries that parse stands behind them afterwards, with their slots stored (R336, R345). -/
theorem decLoop_walks_entries {C : Params} {s : State} {es : List (Byte × List Byte)} {tail : List Byte}
    (hw : s.walking = true) (hrc : s.rc ≤ s.ilen.toNat) (hes : ∀ e ∈ es, EntryFits C e)
    (hin : ibufRead s s.rc (s.ilen.toNat - s.rc) = entriesBytes es ++ tail) :
    ∃ t, (∀ n, decLoop C (es.length + n) s = decLoop C n t) ∧ t.walking = true ∧ t.dOff = s.dOff
      ∧ t.rc = s.rc + (entriesBytes es).length ∧ t.res = es.foldl (storeOne C) s.res ∧ DecOnly s t :=
  ⟨_, fun n => decLoop_entries C es tail n hw hrc hes hin, hw, rfl, rfl, rfl, decOnly_update s _ _ _ _ _ _ _ _ _ _ _ _ _⟩

/-- The turn at the ETX of a message, reached by a walk from its start, ends the decode with success (R337 to R339). -/
theorem decStep_at_trailer (C : Params) {s : State} {es : List (Byte × List Byte)}
    (hin : ibufRead s 0 s.ilen.toNat = messageBytes es) (hoff : s.dOff = 0) (hrc : s.rc = 1 + (entriesBytes es).length) :
    decStep C s = decFinish { s with da := (spanChecksum s).1, db := (spanChecksum s).2 } := by
  have hlen := ilen_of_message hin
  have hspan : ibufRead s 0 (s.rc + 1) = spanBytes es := by
    have hsub := ibufRead_sub hin (k := 0) (m := s.rc + 1) (by omega)
    rwa [List.drop_zero, messageBytes, List.take_left' (by rw [spanBytes_length]; omega)] at hsub
  have htrailer (k : Nat) (hk : k < 3) : [Config.etx, (fletcher (spanBytes es)).1, (fletcher (spanBytes es)).2][k]?
      = some (ibufByte s (s.rc + k)) := by
    have hbyte := ibufByte_of_read hin (k := s.rc + k) (by omega)
    rw [messageBytes_eq_cons, show s.rc + k = (entriesBytes es).length + k + 1 by omega, List.getElem?_cons_succ,
      List.getElem?_append_right (by omega), Nat.add_sub_cancel_left] at hbyte
    rw [hbyte, hrc]
    congr 2
    omega
  have hetx : ibufByte s s.rc = Config.etx := (Option.some.inj (htrailer 0 (by omega))).symm
  have hck : spanChecksum s = (ibufByte s (s.rc + 1), ibufByte s (s.rc + 2)) := by
    have ha : (fletcher (spanBytes es)).1 = _ := Option.some.inj (htrailer 1 (by omega))
    have hb : (fletcher (spanBytes es)).2 = _ := Option.some.inj (htrailer 2 (by omega))
    rw [spanChecksum, hoff, Nat.sub_zero, hspan, ← ha, ← hb]
  have hstep : decStep C s = decEnd s := by rw [decStep, if_neg (by omega), if_pos hetx]
  rcases decEnd_cases s with ⟨hshort, -⟩ | ⟨-, -, hend⟩ | ⟨-, hne, -⟩
  · omega
  · rw [hstep, hend]
  · exact absurd hck hne

/-- DEC_RUN on a message of entries that parse succeeds and stores them (R339). -/
theorem decRun_message {C : Params} {s : State} {es : List (Byte × List Byte)} (hes : ∀ e ∈ es, EntryFits C e)
    (hin : ibufRead s 0 s.ilen.toNat = messageBytes es) :
    (decRun C s).dstate = .dOk ∧ (decRun C s).res = entriesStore C es := by
  have hlen := ilen_of_message hin
  have hstx : ibufByte s 0 = Config.stx := by
    have hbyte := ibufByte_of_read hin (k := 0) (by omega)
    rw [messageBytes_eq_cons] at hbyte
    exact (Option.some.inj hbyte).symm
  have hstart : decStart s = { decClear s with walking := true, dOff := 0, rc := 1 } := by
    rcases decStart_cases s with ⟨hnil, -⟩ | ⟨-, -, h⟩ | ⟨-, hne, -⟩ | ⟨-, hne, -⟩
    · simp [hnil] at hlen
    · exact h
    · exact absurd hstx hne
    · exact absurd hstx hne
  have hbody : ibufRead (decStart s) 1 (s.ilen.toNat - 1)
      = entriesBytes es ++ [Config.etx, (fletcher (spanBytes es)).1, (fletcher (spanBytes es)).2] := by
    have hsub := ibufRead_sub hin (k := 1) (m := s.ilen.toNat - 1) (by omega)
    rw [Nat.zero_add, messageBytes_eq_cons, List.drop_succ_cons, List.drop_zero, List.take_of_length_le (by simp; omega)]
      at hsub
    rw [(decOnly_decStart s).read, hsub]
  rw [hstart] at hbody
  obtain ⟨u, hloop, hwalk, hoff, hrc, hres, honly⟩ :=
    decLoop_walks_entries (s := { decClear s with walking := true, dOff := 0, rc := 1 }) rfl
      (by simp only [decClear_ilen]; omega) hes hbody
  rw [← hstart] at hloop honly
  have hkept := (decOnly_decStart s).trans honly
  have hin' : ibufRead u 0 u.ilen.toNat = messageBytes es := by rw [hkept.ilen, hkept.read, hin]
  obtain ⟨n, hturns⟩ : ∃ n, s.ilen.toNat = es.length + (n + 1) :=
    ⟨s.ilen.toNat - es.length - 1, by have := length_le_entriesBytes es; omega⟩
  rw [decRun, hturns, hloop, decLoop_succ C hwalk, decStep_at_trailer C hin' hoff hrc, decLoop_of_not_walking C rfl]
  exact ⟨rfl, hres⟩

/-! ### The tuples that were answered with OK -/

theorem mem_okOperands {os : List Operand} {codes : List ResultCode} {o : Operand} :
    o ∈ okOperands os codes ↔ ∃ n : Nat, os[n]? = some o ∧ codes[n]? = some .ok := by
  have hzip : o ∈ okOperands os codes ↔ (o, ResultCode.ok) ∈ os.zip codes := by simp [okOperands]
  rw [hzip, List.mem_iff_getElem?]
  simp only [List.getElem?_zip_eq_some]

/-- Only an acceptable tuple is answered with OK (R263). -/
theorem acceptedEntry_of_code_ok {C : Params} (hsize : C.obufSize < 65536) (os : List Operand) {body : List Byte}
    {s : State} (h : OpenWith C body s) {n : Nat} {o : Operand} (ho : os[n]? = some o)
    (hok : (encodeFields C os s).1[n]? = some .ok) : ∃ e, acceptedEntry C o = some e := by
  induction os generalizing body s n with
  | nil => simp at ho
  | cons a os ih =>
    rw [encodeFields_cons] at hok
    cases n with
    | zero =>
      obtain rfl : a = o := Option.some.inj ho
      have hcres : (encField C (loadOperand a s)).cres = .ok := Option.some.inj hok
      rcases encField_openWith h hsize a with ⟨-, hcode, -⟩ | ⟨e, hsome, -⟩ | ⟨e, hsome, -⟩
      · exact Option.isSome_iff_exists.mp ((fieldCode_eq_ok_iff C a).mp (hcode.symm.trans hcres))
      · exact ⟨e, hsome⟩
      · exact ⟨e, hsome⟩
    | succ n =>
      rcases encField_openWith h hsize a with ⟨-, -, ht⟩ | ⟨e, -, -, -, ht⟩ | ⟨e, -, -, ht⟩ <;> exact ih ht ho hok

/-- Settles O58: the decode stores the slot of the one payload sent under the tag, and that slot says what the tuple said. -/
theorem fieldsSurviveTheRoundTrip : Obligations.FieldsSurviveTheRoundTrip := by
  unfold Obligations.FieldsSurviveTheRoundTrip
  intro C os n o d s s' hwf ho hd hok huniq hlen
  obtain ⟨-, himax, hmin, hmax⟩ := sizes_of_wf hwf
  obtain ⟨hbytes, -⟩ := encodeRun_sends hwf os s
  obtain ⟨e, he⟩ := acceptedEntry_of_code_ok (by omega) os (encBegin_openWith s hmin) ho hok
  obtain ⟨d', p, hd', -, hp, rfl⟩ := acceptedEntry_eq_some he
  obtain rfl : d' = d := Option.some.inj (hd'.symm.trans hd)
  have hsent : (o.id, p) ∈ sentEntries C os s := mem_acceptedEntries.mpr ⟨o, mem_okOperands.mpr ⟨n, ho, hok⟩, he⟩
  have honly : ∀ e ∈ sentEntries C os s, e.1 = o.id → e = (o.id, p) := by
    intro e' he' htag
    obtain ⟨o', ho', hacc⟩ := mem_acceptedEntries.mp he'
    obtain ⟨j, hj, hjok⟩ := mem_okOperands.mp ho'
    obtain ⟨_, _, -, -, -, rfl⟩ := acceptedEntry_eq_some hacc
    obtain rfl : j = n := by_contra fun hne => huniq j o' hne hj hjok htag
    obtain rfl : o' = o := Option.some.inj (hj.symm.trans ho)
    exact Option.some.inj (hacc.symm.trans he)
  rw [hbytes] at hlen ⊢
  have hin : ibufRead (loadInput C (messageBytes (sentEntries C os s)) s') 0
      (loadInput C (messageBytes (sentEntries C os s)) s').ilen.toNat = messageBytes (sentEntries C os s) := by
    rw [loadInput_ilen s' hlen (by omega), ibufRead_loadInput s' hlen]
  obtain ⟨hstate, hres⟩ := decRun_message (es := sentEntries C os s) (entryFits_of_mem_acceptedEntries hwf) hin
  have hslot := lookup_entriesStore hd hsent honly
  rw [← hres] at hslot
  refine ⟨hstate, ?valid, ?value⟩
  case valid => rw [decodeAfter, resValid, hslot, Option.isSome_some]
  case value =>
    rw [decodeAfter, resSlot, hslot, Option.getD_some]
    exact roundTrips_slotOf (record_wf_of_wf hwf hd) hp

end Sys2Proof.Proofs
end

section
/-! PROOFS. The running checksum (44_checksum.md): its closed forms over the naturals (R315), and that emitting byte by byte
computes the batch checksum of what stands in OBUF (R318). -/

namespace Sys2Proof.Proofs

open Sys2Proof Sys2Proof.Machine

/-! ### The closed forms (R315) -/

/-- The sum of R315 for the second checksum byte, not yet reduced: the first byte weighs the length, the last weighs 1. -/
def weightedSum (vs : List Byte) : Nat :=
  (vs.zipIdx.map fun p => (vs.length - p.2) * p.1.toNat).sum

@[simp] theorem weightedSum_nil : weightedSum [] = 0 := rfl

/-- A byte put in front leaves the weights of the others as they are. -/
@[simp] theorem weightedSum_cons (v : Byte) (vs : List Byte) :
    weightedSum (v :: vs) = (vs.length + 1) * v.toNat + weightedSum vs := by
  simp [weightedSum, List.zipIdx_cons, List.zipIdx_succ, Function.comp_def]

/-- The step of R312 reduces natural accumulators mod 256. -/
theorem fletcherStep_ofNat (a b : Nat) (v : Byte) :
    fletcherStep (BitVec.ofNat 8 a, BitVec.ofNat 8 b) v
      = (BitVec.ofNat 8 (a + v.toNat), BitVec.ofNat 8 (b + (a + v.toNat))) := by
  simp only [fletcherStep, BitVec.ofNat_add, BitVec.ofNat_toNat, BitVec.setWidth_eq]

/-- The checksum from any accumulators: every byte adds the `a` it starts from once more to `b`. -/
theorem foldl_fletcherStep_ofNat (vs : List Byte) (a b : Nat) :
    vs.foldl fletcherStep (BitVec.ofNat 8 a, BitVec.ofNat 8 b)
      = (BitVec.ofNat 8 (a + (vs.map BitVec.toNat).sum), BitVec.ofNat 8 (b + vs.length * a + weightedSum vs)) := by
  induction vs generalizing a b with
  | nil => simp
  | cons v vs ih =>
    rw [List.foldl_cons, fletcherStep_ofNat, ih, List.map_cons, List.sum_cons, weightedSum_cons, List.length_cons]
    congr 2 <;> ring

theorem fletcher_eq_ofNat (vs : List Byte) :
    fletcher vs = (BitVec.ofNat 8 (vs.map BitVec.toNat).sum, BitVec.ofNat 8 (weightedSum vs)) := by
  simpa [fletcher] using foldl_fletcherStep_ofNat vs 0 0

/-- Settles O40: both accumulators, followed over the naturals and reduced once at the end. -/
theorem checksumClosedForms : Obligations.ChecksumClosedForms := by
  unfold Obligations.ChecksumClosedForms
  refine ⟨fun vs => ?closed, by decide, by decide⟩
  rw [fletcher_eq_ofNat]
  exact ⟨BitVec.toNat_ofNat _ _, BitVec.toNat_ofNat _ _⟩

/-! ### Running equals batch (R318) -/

/-- OBUF holds these bytes up to the cursor, and EA and EB their checksum. -/
structure Emitted (bs : List Byte) (s : State) : Prop where
  cursor : s.wc.toNat = bs.length
  bytes : obufRead s 0 bs.length = bs
  checksum : (s.ea, s.eb) = fletcher bs

/-- `emit` of bytes that fit appends them (R262). -/
theorem Emitted.emitAll {C : Params} {bs : List Byte} {s : State} (h : Emitted bs s) (vs : List Byte)
    (hfit : bs.length + vs.length ≤ C.obufSize) (hsize : C.obufSize < 65536) : Emitted (bs ++ vs) (emitAll C vs s) := by
  obtain ⟨hcursor, hread, hck⟩ := h
  obtain ⟨m, ht, hplaced, -⟩ := emitAll_eq C vs s (by omega) hsize
  rw [hcursor] at ht hplaced
  rw [ht]
  refine ⟨?cursor, ?bytes, ?checksum⟩
  case cursor =>
    rw [List.length_append]
    exact Nat.mod_eq_of_lt (by omega)
  case bytes =>
    rw [List.length_append, obufRead_append, Nat.zero_add]
    congr 1
    · exact (obufRead_ext fun i hi => obufByte_not_placed (by rfl) hplaced (by omega)).trans hread
    · exact obufRead_placed (s := s) rfl hplaced
  case checksum => rw [fletcher_append, ← hck]

/-- ENC_BEGIN has emitted STX (R261). -/
theorem encBegin_emitted {C : Params} (s : State) (h : 4 ≤ C.obufSize) : Emitted [Config.stx] (encBegin C s) :=
  have hopen := encBegin_openWith s h
  ⟨hopen.cursor, hopen.bytes, hopen.checksum⟩

/-- Settles O41: what ENC_BEGIN has emitted, extended by the bytes. -/
theorem runningChecksumEqualsBatch : Obligations.RunningChecksumEqualsBatch := by
  unfold Obligations.RunningChecksumEqualsBatch
  intro C vs s hwf hfit
  obtain ⟨-, -, hmin, hmax⟩ := sizes_of_wf hwf
  obtain ⟨hcursor, hread, hck⟩ := (encBegin_emitted s hmin).emitAll vs hfit (by omega)
  refine ⟨?cursor, ?bytes, hck⟩
  case cursor => rw [hcursor, List.length_append, List.length_singleton]
  case bytes =>
    rw [hcursor]
    exact hread

end Sys2Proof.Proofs
end

section
/-! PROOFS. DEC_RUN on a whole message (45_decoder.md, R339), behind a header or none and whatever follows it: where the walk
starts, what its last turn finds, and the state the command ends in. -/

namespace Sys2Proof.Proofs

open Sys2Proof Sys2Proof.Machine

/-! ### Parts of the input -/

/-- What a read shows behind its first bytes. -/
theorem ibufRead_drop {s : State} {a n : Nat} {xs ys : List Byte} (h : ibufRead s a n = xs ++ ys) :
    ibufRead s (a + xs.length) (n - xs.length) = ys := by
  have hlen : n = xs.length + ys.length := by rw [← ibufRead_length s a n, h, List.length_append]
  rw [ibufRead_sub h (by omega), List.drop_left' rfl, List.take_of_length_le (by omega)]

/-- What a read shows in its first bytes. -/
theorem ibufRead_take {s : State} {a n : Nat} {xs ys : List Byte} (h : ibufRead s a n = xs ++ ys) :
    ibufRead s a xs.length = xs := by
  have hlen : n = xs.length + ys.length := by rw [← ibufRead_length s a n, h, List.length_append]
  have hsub := ibufRead_sub h (k := 0) (m := xs.length) (by omega)
  rwa [Nat.add_zero, List.drop_zero, List.take_left' rfl] at hsub

/-- The byte a read shows behind its first bytes. -/
theorem ibufByte_of_read_append {s : State} {a n : Nat} {xs ys : List Byte} {v : Byte}
    (h : ibufRead s a n = xs ++ v :: ys) : ibufByte s (a + xs.length) = v := by
  rw [show xs ++ v :: ys = (xs ++ [v]) ++ ys by simp] at h
  have hread := ibufRead_take h
  rw [List.length_append, List.length_singleton, ibufRead_append, ibufRead_one] at hread
  exact List.singleton_inj.mp (List.append_inj_right' hread rfl)

/-! ### The start, the loop and the last turn -/

/-- The walk of a DEC_RUN opened behind the header `h`: the cursor stands after STX, nothing is read yet (R331, R332). -/
def walkOpened (h : List Byte) (s : State) : State :=
  { decClear s with dhdr := !h.isEmpty, walking := true, dOff := h.length, rc := h.length + 1 }

/-- The walk opened behind the header `h` after these entries: their slots are stored, they are counted, the cursor stands
after them (R336, R345). -/
def walkRead (C : Params) (h : List Byte) (es : List (Byte × List Byte)) (s : State) : State :=
  { walkOpened h s with
    res := entriesStore C es
    dcnt := BitVec.ofNat 16 (min es.length 65535)
    rc := h.length + 1 + (entriesBytes es).length }

@[simp] theorem walkOpened_rc (h : List Byte) (s : State) : (walkOpened h s).rc = h.length + 1 := rfl
@[simp] theorem walkOpened_ilen (h : List Byte) (s : State) : (walkOpened h s).ilen = s.ilen := rfl
@[simp] theorem walkRead_rc (C : Params) (h : List Byte) (es : List (Byte × List Byte)) (s : State) :
    (walkRead C h es s).rc = h.length + 1 + (entriesBytes es).length := rfl
@[simp] theorem walkRead_dcnt (C : Params) (h : List Byte) (es : List (Byte × List Byte)) (s : State) :
    (walkRead C h es s).dcnt = BitVec.ofNat 16 (min es.length 65535) := rfl

/-- Behind a header or none, the walk opens at the STX (R331, R332). -/
theorem decStart_at_stx {s : State} {h rest : List Byte} (hh : HeaderFits h)
    (hin : ibufRead s 0 s.ilen.toNat = h ++ Config.stx :: rest) :
    decStart s = walkOpened h s := by
  have hlen : s.ilen.toNat = h.length + (rest.length + 1) := by
    rw [← ibufRead_length s 0 s.ilen.toNat, hin, List.length_append, List.length_cons]
  have hne : s.ilen ≠ 0 := fun hzero => by simp [hzero] at hlen
  have hstx : ibufByte s h.length = Config.stx := by simpa using ibufByte_of_read_append hin
  rcases hh with rfl | ⟨hfive, hhead⟩
  case inl =>
    rcases decStart_cases s with ⟨hzero, -⟩ | ⟨-, -, hstart⟩ | ⟨-, hno, -⟩ | ⟨-, hno, -⟩
    · exact absurd hzero hne
    · exact hstart
    · exact absurd hstx hno
    · exact absurd hstx hno
  case inr =>
    obtain ⟨v, tl, rfl⟩ := List.exists_cons_of_length_eq_add_one hfive
    have hfirst : ibufByte s 0 ≠ Config.stx := by
      rw [show ibufByte s 0 = v from ibufByte_of_read_append (xs := []) hin]
      exact fun hv => hhead (congrArg some hv)
    rw [hfive] at hlen hstx
    rw [walkOpened, hfive]
    rcases decStart_cases s with ⟨hzero, -⟩ | ⟨-, hyes, -⟩ | ⟨-, -, hshort | hno, -⟩ | ⟨-, -, -, hstart⟩
    · exact absurd hzero hne
    · exact absurd hyes hfirst
    · omega
    · exact absurd hstx hno
    · exact hstart

/-- The loop reads entries that parse, in order (R333 to R336). -/
theorem decLoop_walkOpened {C : Params} {s : State} {h tail : List Byte} {es : List (Byte × List Byte)} (n : Nat)
    (hes : ∀ e ∈ es, EntryFits C e)
    (hin : ibufRead s 0 s.ilen.toNat = h ++ Config.stx :: (entriesBytes es ++ tail)) :
    decLoop C (es.length + n) (walkOpened h s) = decLoop C n (walkRead C h es s) := by
  have hlen := congrArg List.length hin
  simp only [ibufRead_length, List.length_append, List.length_cons] at hlen
  have hentries := ibufRead_drop (xs := h ++ [Config.stx]) (hin.trans (List.append_cons _ _ _))
  rw [Nat.zero_add, List.length_append, List.length_singleton] at hentries
  have hloop := decLoop_entries C es tail n (s := walkOpened h s) rfl (by simp only [walkOpened_rc, walkOpened_ilen]; omega)
    hes hentries
  rw [show (walkOpened h s).dcnt.toNat + es.length = es.length from Nat.zero_add _] at hloop
  exact hloop

/-- The turn at the ETX of a message whose STX stands at the start offset: the checksum of the span stands behind it, and the
decode succeeds, whatever follows (R337 to R339). -/
theorem decStep_at_etx (C : Params) {s : State} {es : List (Byte × List Byte)} {z : List Byte} {n : Nat}
    (hin : ibufRead s s.dOff n = messageBytes es ++ z) (hend : s.dOff + n = s.ilen.toNat)
    (hrc : s.rc = s.dOff + 1 + (entriesBytes es).length) :
    decStep C s = decFinish { s with da := (fletcher (spanBytes es)).1, db := (fletcher (spanBytes es)).2 } := by
  have hspan := spanBytes_length es
  have hn : n = 4 + (entriesBytes es).length + z.length := by
    rw [← ibufRead_length s s.dOff n, hin, List.length_append, messageBytes_length, entriesBytes_length]
  have hck : spanChecksum s = fletcher (spanBytes es) := by
    rw [messageBytes, List.append_assoc] at hin
    rw [spanChecksum, show s.rc + 1 - s.dOff = (spanBytes es).length by omega, ibufRead_take hin]
  have hbody : ibufRead s s.dOff n = (Config.stx :: entriesBytes es) ++ (Config.etx
      :: (fletcher (spanBytes es)).1 :: (fletcher (spanBytes es)).2 :: z) := by
    rw [hin, messageBytes_eq_cons]
    simp
  have hcursor : s.dOff + (Config.stx :: entriesBytes es).length = s.rc := by
    rw [List.length_cons]
    omega
  have htrailer := ibufRead_drop hbody
  rw [hcursor] at htrailer
  have hetx : ibufByte s s.rc = Config.etx := ibufByte_of_read_append (xs := []) htrailer
  have ha : ibufByte s (s.rc + 1) = (fletcher (spanBytes es)).1 := ibufByte_of_read_append (xs := [_]) htrailer
  have hb : ibufByte s (s.rc + 2) = (fletcher (spanBytes es)).2 := ibufByte_of_read_append (xs := [_, _]) htrailer
  have hstep : decStep C s = decEnd s := by rw [decStep, if_neg (by omega), if_pos hetx]
  rcases decEnd_cases s with ⟨hshort, -⟩ | ⟨-, -, hok⟩ | ⟨-, hne, -⟩
  · omega
  · rw [hstep, hok, hck]
  · exact absurd (by rw [hck, ha, hb]) hne

/-! ### The whole command -/

/-- DEC_RUN on a message, behind a header or none and whatever follows: the walk reads the entries in order, finds the
checksum and finishes (R330, R339). For every registry. -/
theorem decRun_of_message {C : Params} {s : State} {h : List Byte} {es : List (Byte × List Byte)} {z : List Byte}
    (hh : HeaderFits h) (hes : ∀ e ∈ es, EntryFits C e)
    (hin : ibufRead s 0 s.ilen.toNat = h ++ messageBytes es ++ z) :
    decRun C s = decFinish { walkRead C h es s with
      da := (fletcher (spanBytes es)).1, db := (fletcher (spanBytes es)).2 } := by
  rw [List.append_assoc] at hin
  have hmessage := ibufRead_drop hin
  rw [Nat.zero_add] at hmessage
  rw [messageBytes_eq_cons, List.cons_append, List.append_assoc] at hin
  have hlen := congrArg List.length hin
  simp only [ibufRead_length, List.length_append, List.length_cons] at hlen
  obtain ⟨n, hturns⟩ : ∃ n, s.ilen.toNat = es.length + (n + 1) :=
    ⟨s.ilen.toNat - es.length - 1, by have := length_le_entriesBytes es; omega⟩
  have hend : decStep C (walkRead C h es s) = _ :=
    decStep_at_etx C (s := walkRead C h es s) hmessage
      (show h.length + (s.ilen.toNat - h.length) = s.ilen.toNat by omega) rfl
  rw [decRun, hturns, decStart_at_stx hh hin, decLoop_walkOpened (n + 1) hes hin, decLoop_succ C rfl, hend,
    decLoop_of_not_walking C rfl]

/-- Settles O54: the state DEC_RUN ends in, field by field; the cursor and the count stay below the registers' 65536. -/
theorem decRunDecodesAMessage : Obligations.DecRunDecodesAMessage := by
  unfold Obligations.DecRunDecodesAMessage
  intro s h es z hh hes hin
  have hlen : s.ilen.toNat = h.length + (4 + (entriesBytes es).length) + z.length := by
    rw [← ibufRead_length s 0 s.ilen.toNat, hin, List.length_append, List.length_append, messageBytes_length,
      entriesBytes_length]
  have hmax := s.ilen.isLt
  have hcount := length_le_entriesBytes es
  have hrun := decRun_of_message hh hes hin
  have hframe := (decOnly_decRun defaultParams s).frame
  rw [hrun] at hframe
  refine ⟨_, congrArg Host.Outcome.next hrun, rfl, rfl, rfl, rfl, ?dpos, rfl, rfl, ?dcnt, rfl, hframe rfl rfl rfl⟩
  case dpos =>
    rw [decFinish_dpos, BitVec.toNat_ofNat, messageBytes_length, ← entriesBytes_length]
    simp only [walkRead_rc]
    omega
  case dcnt =>
    simp only [decFinish_dcnt, walkRead_dcnt, BitVec.toNat_ofNat]
    omega

end Sys2Proof.Proofs
end

section
/-! PROOFS. The system commands (46_system.md): NOP (R380), RESET (R382), and what a write to CMD does, with the codes that name
no command (R384). -/

namespace Sys2Proof.Proofs

open Sys2Proof Sys2Proof.Machine

/-! ### NOP and RESET -/

theorem exec_nop (s : State) : exec .nop s = .next { s with cres := .ok } := rfl

theorem exec_reset (s : State) : exec .reset s = .next (commandReset s) := rfl

/-- A state that differs in CRES alone keeps everything else; a usage error is one such state. -/
theorem setCres_onlyCres (code : ResultCode) (s : State) : OnlyCres s { s with cres := code } :=
  usageError_onlyCres code s

/-- Settles O21: NOP is a write of CRES. -/
theorem nopWritesOnlyCres : Obligations.NopWritesOnlyCres := by
  unfold Obligations.NopWritesOnlyCres
  exact ⟨rfl, fun s => ⟨_, exec_nop s, rfl, setCres_onlyCres .ok s⟩⟩

/-- RESET zeroes both halves of OP_MANT (R382, R25). -/
theorem opMant_commandReset (s : State) : opMant (commandReset s) = 0 := by
  simp only [opMant, commandReset_opMantHi, commandReset_opMantLo]
  decide

/-- RESET zeroes every element register (R382, R23). -/
theorem commandReset_ope_getElem (s : State) (k : Fin 8) : (commandReset s).ope[k] = 0 := by
  rw [commandReset_ope]
  revert k
  decide

/-- STATUS is a view of four fields, and RESET clears them (R28, R382). -/
theorem statusWord_commandReset (s : State) : statusWord (commandReset s) = 0 := by
  simp only [statusWord, commandReset_dhdr, commandReset_advLen, commandReset_dstate, commandReset_estate]
  decide

/-- Settles O22: the registers are those of the power-on state, field by field; the stored slots are gone; the buffers' bytes
are read from the same memories, and the free ones from the same power-on (logs 5 and 11). -/
theorem resetKeepsTheBuffers : Obligations.ResetKeepsTheBuffers := by
  unfold Obligations.ResetKeepsTheBuffers
  refine ⟨rfl, fun s => ⟨_, exec_reset s, rfl, rfl, rfl, rfl, opMant_commandReset s, commandReset_ope_getElem s,
    rfl, rfl, rfl, rfl, rfl, rfl, rfl, rfl, rfl, rfl, rfl, rfl, rfl, rfl, rfl, rfl,
    ?noResults, rfl, rfl, rfl, statusWord_commandReset s, ?output, ?input, ⟨rfl, rfl⟩, rfl, rfl, rfl⟩⟩
  case noResults => exact noResults_of_nil (commandReset_res s)
  case output => exact obufByte_congr (commandReset_obuf s) (commandReset_epoch s)
  case input => exact ibufByte_congr (commandReset_ibuf s) (commandReset_epoch s)

/-! ### A write to CMD -/

/-- A code that names a command is one of the eight (R120). -/
theorem mem_codes_of_decodeCommand {code : Byte} {i : Instr} (h : decodeCommand code = some i) :
    code ∈ ([0x00, 0x01, 0x02, 0x03, 0x10, 0x20, 0x21, 0xff] : List Byte) := by
  have hofNat : code = BitVec.ofNat 8 code.toNat := by rw [BitVec.ofNat_toNat, BitVec.setWidth_eq]
  unfold decodeCommand at h
  split at h
  case h_9 => cases h
  all_goals
    next hcode =>
      rw [hofNat, hcode]
      decide

/-- Every other code is illegal (R121). -/
theorem decodeCommand_of_not_mem {code : Byte}
    (h : code ∉ ([0x00, 0x01, 0x02, 0x03, 0x10, 0x20, 0x21, 0xff] : List Byte)) : decodeCommand code = none := by
  cases hd : decodeCommand code with
  | none => rfl
  | some i => exact absurd (mem_codes_of_decodeCommand hd) h

/-- Between commands, an access that gives a command executes it. -/
theorem step_of_run {s t : State} {i : Instr} (hw : s.walking = false) (hf : fetchHost defaultParams s = .run i t) :
    step s = exec i t := by
  simp only [step, fetch, hw, Bool.false_eq_true, if_false, hf]

/-- A step that takes a write to CMD: the low byte alone is decoded, and the command it names is executed; if it names none,
CRES takes IllegalCommand (R384, R386). -/
theorem step_write_cmd {s : State} {v : Word} {accesses : List HostAccess} (hw : s.walking = false)
    (hp : s.pending = .write 0 v :: accesses) :
    step s = (decodeCommand (v.extractLsb' 0 8)).elim (.next (illegalCommand { s with pending := accesses }))
      fun i => exec i { s with pending := accesses } := by
  rw [← BitVec.setWidth_eq_extractLsb' (by decide)]
  rcases fetchHost_cases defaultParams s with ⟨h, -⟩ | ⟨_, _, h, -⟩ | ⟨_, h, -⟩ | ⟨_, _, _, i, h, -, hd, hf⟩
    | ⟨_, _, _, h, -, hd, hf⟩ | ⟨_, _, _, h, hcmd, -⟩ <;> rw [hp] at h <;> cases h
  · rw [hd, step_of_run hw hf, Option.elim_some]
  · rw [hd, step_of_done hw hf, Option.elim_none]
  · exact absurd rfl hcmd

/-- Settles O23: the three clauses are about a code that names no command, two values with one low byte, and 0x101, whose low
byte names ENC_BEGIN. -/
theorem illegalCodesWriteOnlyCres : Obligations.IllegalCodesWriteOnlyCres := by
  unfold Obligations.IllegalCodesWriteOnlyCres
  refine ⟨fun s v accesses hw hp hcode => ?illegal, fun s v w accesses hw hlow => ?lowByte, fun s accesses hw hp => ?encBegin⟩
  case illegal =>
    refine ⟨illegalCommand { s with pending := accesses }, ?_, rfl, rfl, usageError_onlyCres .illegalCommand _⟩
    rw [step_write_cmd hw hp, decodeCommand_of_not_mem hcode, Option.elim_none]
  case lowByte =>
    have write (x : Word) := step_write_cmd (s := { s with pending := .write 0 x :: accesses }) hw rfl
    rw [write v, write w, hlow]
  case encBegin =>
    rw [step_write_cmd hw hp]
    rfl

end Sys2Proof.Proofs
end

section
/-! PROOFS. The exceptions (60_exceptions.md): the result codes the commands can answer, SequenceError among them (R418), and
the causes of MalformedMessage (R412). -/

namespace Sys2Proof.Proofs

open Sys2Proof Sys2Proof.Machine

/-! ### The result codes of the commands -/

/-- The result codes a DEC_RUN can end with (R330). -/
def decodeCodes : List ResultCode :=
  [.ok, .unknownField, .malformedMessage, .truncatedMessage, .checksumMismatch]

/-- A turn of the loop that ends the walk answers one of the decoder's codes (R333 to R339). -/
theorem decStep_cres_mem {C : Params} {s : State} (hw : s.walking = true) (hend : (decStep C s).walking = false) :
    (decStep C s).cres ∈ decodeCodes := by
  rcases decStep_cases C s with ⟨-, h⟩ | ⟨-, -, h⟩ | ⟨-, -, -, h⟩ | ⟨_, -, -, -, -, h⟩ | ⟨_, -, -, -, h⟩ <;> rw [h]
  case inr.inl =>
    rcases decEnd_cases s with ⟨-, hetx⟩ | ⟨-, -, hetx⟩ | ⟨-, -, hetx⟩ <;> rw [hetx] <;> simp [decodeCodes]
  case inr.inr.inr.inr =>
    rw [h, storeEntry_walking, hw] at hend
    cases hend
  all_goals simp [decodeCodes]

/-- A DEC_RUN that does not open its walk answers one of the decoder's codes (R331, R332). -/
theorem decStart_cres_mem {s : State} (hend : (decStart s).walking = false) : (decStart s).cres ∈ decodeCodes := by
  rcases decStart_cases s with ⟨-, h⟩ | ⟨-, -, h⟩ | ⟨-, -, -, h⟩ | ⟨-, -, -, h⟩ <;> rw [h] at hend ⊢
  case inl => simp [decodeCodes]
  case inr.inr.inl => simp [decodeCodes]
  all_goals cases hend

/-- DEC_RUN answers one of the decoder's codes: it ends its walk, and only where the walk ends is CRES written. -/
theorem decRun_cres_mem (C : Params) (s : State) : (decRun C s).cres ∈ decodeCodes := by
  have hloop : (decRun C s).walking = false → (decRun C s).cres ∈ decodeCodes :=
    decLoop_keeps (P := fun t => t.walking = false → t.cres ∈ decodeCodes) (fun _ _ hw => decStep_cres_mem hw) _
      (decStart_cres_mem (s := s))
  exact hloop (decRun_ends C s)

/-- The result codes ENC_FIELD can answer with a message open (R263). -/
theorem encField_cres_mem {C : Params} {s : State} (ho : s.estate = .eOpen) :
    (encField C s).cres ∈ [ResultCode.ok, .unknownField, .invalidFieldValue, .bufferOverflow] := by
  rcases encField_cases C s with ⟨hno, -⟩ | ⟨-, -, h⟩ | ⟨-, -, -, h⟩ | ⟨_, -, -, -, -, -, h⟩ | ⟨_, _, -, -, -, -, -, -, h⟩
    | ⟨_, _, -, -, -, -, -, -, h⟩
  case inl => exact absurd ho hno
  all_goals
    rw [h]
    simp

/-- ENC_FIELD with no message open (R418). -/
theorem encField_of_not_open {C : Params} {s : State} (h : s.estate ≠ .eOpen) :
    encField C s = usageError .sequenceError s :=
  if_neg h

/-- ENC_END answers OK with a message open (R288). -/
theorem encEnd_cres_of_open {C : Params} {s : State} (ho : s.estate = .eOpen) : (encEnd C s).cres = .ok := by
  rw [encEnd, if_pos ho]

@[simp] theorem encBegin_cres (C : Params) (s : State) : (encBegin C s).cres = .ok := rfl

theorem exec_decRun (s : State) : exec .decRun s = .next (decRun defaultParams s) := rfl

/-- A query answers OK or UnknownField (R141, R142). -/
theorem queryCode_ne_sequenceError (d : Option Record) : queryCode d ≠ .sequenceError := by
  cases d <;> simp [queryCode]

/-- Settles O27: the two commands fall through to the usage error with no message open; every other path writes a code of its
command's own list. -/
theorem sequenceErrorOutsideAnOpenMessage : Obligations.SequenceErrorOutsideAnOpenMessage := by
  unfold Obligations.SequenceErrorOutsideAnOpenMessage
  simp only [List.forall_mem_cons, List.not_mem_nil, false_imp_iff, implies_true, and_true]
  refine ⟨fun s => ⟨fun hno => ?fieldClosed, fun hno => ?endClosed⟩,
    fun s t => ⟨fun ho hexec => ?fieldOpen, fun ho hexec => ?endOpen⟩,
    fun s t => ⟨fun hexec => ?nop, fun hexec => ?encBegin, fun hexec => ?decRun, fun hexec => ?regTypeof,
      fun hexec => ?regScaleof, fun hexec => ?reset⟩⟩
  case fieldClosed =>
    rw [exec_encField, encField_of_not_open hno]
    exact ⟨_, rfl, rfl, rfl, usageError_onlyCres .sequenceError s⟩
  case endClosed =>
    rw [exec_encEnd, encEnd_of_not_open hno]
    exact ⟨_, rfl, rfl, rfl, usageError_onlyCres .sequenceError s⟩
  case fieldOpen =>
    cases hexec
    exact ne_of_mem_of_not_mem (encField_cres_mem ho) (by decide)
  case endOpen =>
    cases hexec
    simp [encEnd_cres_of_open ho]
  case decRun =>
    cases hexec
    exact ne_of_mem_of_not_mem (decRun_cres_mem defaultParams s) (by decide)
  case regTypeof =>
    cases (exec_regTypeof s).symm.trans hexec
    exact queryCode_ne_sequenceError _
  case regScaleof =>
    cases (exec_regScaleof s).symm.trans hexec
    exact queryCode_ne_sequenceError _
  case nop | encBegin | reset =>
    cases hexec
    simp

/-! ### The causes of MalformedMessage -/

/-- A DEC_RUN whose start fails ends there: the loop makes no turn (R330). -/
theorem decRun_of_decStart_eq_decFail (C : Params) {s t : State} {code : ResultCode} {pos : Nat} {tag : Byte}
    (h : decStart s = decFail code pos tag t) : decRun C s = decFail code pos tag t := by
  rw [decRun, h, decLoop_of_not_walking C rfl]

/-- DEC_RUN on no input (R331). -/
theorem decRun_of_no_input (C : Params) {s : State} (h : s.ilen = 0) :
    decRun C s = decFail .malformedMessage 0 0 (decClear s) := by
  apply decRun_of_decStart_eq_decFail
  rw [decStart]
  exact if_pos h

/-- DEC_RUN on an input with STX neither at offset 0 nor at offset 5 (R331, R332). -/
theorem decRun_of_no_stx (C : Params) {s : State} (hne : s.ilen ≠ 0) (hfirst : ibufByte s 0 ≠ Config.stx)
    (hsixth : s.ilen.toNat ≤ 5 ∨ ibufByte s 5 ≠ Config.stx) :
    decRun C s = decFail .malformedMessage 5 0 { decClear s with dhdr := true } := by
  apply decRun_of_decStart_eq_decFail
  rcases decStart_cases s with ⟨hzero, -⟩ | ⟨-, hstx, -⟩ | ⟨-, -, -, hstart⟩ | ⟨hlong, -, hstx, -⟩
  · exact absurd hzero hne
  · exact absurd hstx hfirst
  · exact hstart
  · exact absurd hsixth (not_or.mpr ⟨by omega, not_not.mpr hstx⟩)

/-- DEC_RUN on entries that parse and then the end of the input: the turn after the last entry finds no tag (R333). -/
theorem decRun_of_no_etx {C : Params} {s : State} {h : List Byte} {es : List (Byte × List Byte)}
    (hh : HeaderFits h) (hes : ∀ e ∈ es, EntryFits C e)
    (hin : ibufRead s 0 s.ilen.toNat = h ++ Config.stx :: entriesBytes es) :
    decRun C s = decFail .malformedMessage s.ilen.toNat 0 (walkRead C h es s) := by
  have hlen : s.ilen.toNat = h.length + 1 + (entriesBytes es).length := by
    rw [← ibufRead_length s 0 s.ilen.toNat, hin, List.length_append, List.length_cons]
    omega
  obtain ⟨n, hturns⟩ : ∃ n, s.ilen.toNat = es.length + (n + 1) :=
    ⟨s.ilen.toNat - es.length - 1, by have := length_le_entriesBytes es; omega⟩
  have hend : decStep C (walkRead C h es s) = decFail .malformedMessage s.ilen.toNat 0 (walkRead C h es s) := by
    rw [decStep, hlen]
    exact if_pos hlen.le
  rw [decRun, decStart_at_stx hh hin, hturns, decLoop_walkOpened (n + 1) (tail := []) hes (by rwa [List.append_nil]),
    decLoop_succ C rfl, hend, decLoop_of_not_walking C rfl, hturns]

/-- DEC_RUN where it fails: what R410 records, with DHDR, DA and DB as they stood when the error was found. -/
theorem exec_decRun_of_decFail {s t : State} {code : ResultCode} {pos : Nat} {tag : Byte}
    (h : decRun defaultParams s = decFail code pos tag t) (hpos : pos < 65536) :
    ∃ u, exec .decRun s = .next u ∧ DecodeFailed code pos tag u ∧ u.dhdr = t.dhdr ∧ u.da = t.da ∧ u.db = t.db := by
  rw [exec_decRun, h]
  exact ⟨_, rfl, decFail_spec code pos tag t hpos, rfl, rfl, rfl⟩

/-- Settles O52: each cause is one failure of the start or of the last turn, with the checksum registers as step 0 of R330
cleared them. -/
theorem malformedMessageCauses : Obligations.MalformedMessageCauses := by
  unfold Obligations.MalformedMessageCauses
  refine ⟨fun s hzero => ?noInput, fun s hne hfirst hshort => ?noSixthByte, fun s hlong hfirst hsixth => ?noStx,
    fun s h es hh hes hin => ?noEtx⟩
  case noInput => exact exec_decRun_of_decFail (decRun_of_no_input _ hzero) (by decide)
  case noSixthByte => exact exec_decRun_of_decFail (decRun_of_no_stx _ hne hfirst (.inl hshort)) (by decide)
  case noStx =>
    have hne : s.ilen ≠ 0 := fun hzero => by simp [hzero] at hlong
    exact exec_decRun_of_decFail (decRun_of_no_stx _ hne hfirst (.inr hsixth)) (by decide)
  case noEtx => exact exec_decRun_of_decFail (decRun_of_no_etx hh hes hin) s.ilen.isLt

end Sys2Proof.Proofs
end

section
/-! PROOFS. The wire form of instructions (30_encoding.md): what each entry format reads and writes, that decoding and encoding
are inverse to each other in both spaces, and REG_DEFAULT as the table of the formats. -/

namespace Sys2Proof.Proofs

open Sys2Proof Sys2Proof.Machine

/-! ### Decoding what was encoded

A reader names its tag only where it refuses, so the five lemmas hold for any tag. -/

theorem readOne_leBytes (mk : Byte → Instr) (tag u : Byte) (rest : List Byte) :
    readOne mk tag (leBytes 1 u.toNat ++ rest) = .entry (mk u) rest := by
  rw [leBytes_one]
  rfl

theorem readTwo_leBytes (mk : Half → Instr) (tag : Byte) (u : Half) (rest : List Byte) :
    readTwo mk tag (leBytes 2 u.toNat ++ rest) = .entry (mk u) rest :=
  congrArg (fun x => EntryRead.entry (mk x) rest) (le16_bytes u)

theorem readFour_leBytes (mk : Word → Instr) (tag : Byte) (u : Word) (rest : List Byte) :
    readFour mk tag (leBytes 4 u.toNat ++ rest) = .entry (mk u) rest :=
  congrArg (fun x => EntryRead.entry (mk x) rest) (le32_bytes u)

theorem readArray43_leBytes (mk : Word → Word → Word → Instr) (tag : Byte) (a b c : Word) (rest : List Byte) :
    readArray43 mk tag (leBytes 4 a.toNat ++ leBytes 4 b.toNat ++ leBytes 4 c.toNat ++ rest) = .entry (mk a b c) rest :=
  calc readArray43 mk tag (leBytes 4 a.toNat ++ leBytes 4 b.toNat ++ leBytes 4 c.toNat ++ rest)
    _ = .entry (mk (le32 _ _ _ _) (le32 _ _ _ _) (le32 _ _ _ _)) rest := rfl
    _ = .entry (mk a b c) rest := by rw [le32_bytes a, le32_bytes b, le32_bytes c]

theorem readDateTime_leBytes (mk : Half → Byte → Byte → Byte → Byte → Byte → Instr) (tag : Byte) (year : Half)
    (month day hour minute second : Byte) (rest : List Byte) :
    readDateTime mk tag (leBytes 2 year.toNat ++ [month, day, hour, minute, second] ++ rest)
      = .entry (mk year month day hour minute second) rest :=
  congrArg (fun y => EntryRead.entry (mk y month day hour minute second) rest) (le16_bytes year)

/-- An encoded entry is read back, whatever bytes follow (R92 to R95). -/
theorem decodeEntry_encode (i : Instr) (rest : List Byte) (hs : i.space = .entry) :
    decodeEntry (encode i ++ rest) = .entry i rest := by
  cases i
  case datetime => exact readDateTime_leBytes .datetime 0x14 _ _ _ _ _ _ _
  case mofields => exact readArray43_leBytes .mofields 0x30 _ _ _ _
  case stx | etx | userfunc1 | userfunc2 | userfunc3 | userfunc4 | geofstat | rbhead => rfl
  case nop | encBegin | encField | encEnd | decRun | regTypeof | regScaleof | reset => cases hs
  case swver | month | day | hour | min | sec | sats | fix | userval1 | userval2 | flags1 | flags2 | geofnum | dynmodel =>
    exact readOne_leBytes _ 0 _ _
  case battv | press | temp | humid | year | millis | pdop | userval3 | userval4 | hipress | lopress | hitemp | lotemp
      | hihumid | lohumid | wakeint | alarmint | txint | lowbatt | userfunc5 | userfunc6 =>
    exact readTwo_leBytes _ 0 _ _
  all_goals exact readFour_leBytes _ 0 _ _

theorem decodeCommand_encode (i : Instr) (rest : List Byte) (hs : i.space = .command) :
    decode .command (encode i ++ rest) = some (i, rest) := by
  cases i
  case nop | encBegin | encField | encEnd | decRun | regTypeof | regScaleof | reset => rfl
  all_goals cases hs

/-- Settles O1: the instruction is read back in the space it belongs to. -/
theorem decodeInvertsEncode : Obligations.DecodeInvertsEncode := by
  unfold Obligations.DecodeInvertsEncode
  intro i rest
  cases hs : i.space with
  | command => exact decodeCommand_encode i rest hs
  | entry => rw [decode, decodeEntry_encode i rest hs]

/-! ### Encoding what was decoded -/

/-- A reader of the entries that `tag` opens, with payloads of type `ty`: a payload that is not all there is refused, and a
whole one is the payload of the entry that is read (R96, R335). -/
def Reads (tag : Byte) (ty : FieldType) (read : List Byte → EntryRead) : Prop :=
  (∀ p, p.length < paylen ty → read p = .truncated tag)
    ∧ ∀ p rest, p.length = paylen ty → ∃ i, read (p ++ rest) = .entry i rest ∧ i.form = some (tag, ty) ∧ encode i = tag :: p

theorem reads_marker {tag : Byte} {i : Instr} (hform : i.form = some (tag, .marker)) (henc : encode i = [tag]) :
    Reads tag .marker fun p => .entry i p := by
  refine ⟨fun p hp => absurd hp (Nat.not_lt_zero _), fun p rest hp => ?_⟩
  obtain rfl := List.length_eq_zero_iff.mp hp
  exact ⟨i, rfl, hform, henc⟩

theorem reads_one {tag : Byte} {mk : Byte → Instr} {signed isFloat : Bool}
    (hform : ∀ u, (mk u).form = some (tag, .scalar .one signed isFloat))
    (henc : ∀ u, encode (mk u) = tag :: leBytes 1 u.toNat) : Reads tag (.scalar .one signed isFloat) (readOne mk tag) := by
  refine ⟨fun p hp => ?short, fun p rest hp => ?whole⟩
  case short =>
    match p, hp with
    | [], _ => rfl
  case whole =>
    match p, hp with
    | [b], _ => exact ⟨mk b, rfl, hform b, by rw [henc, leBytes_one]⟩

theorem reads_two {tag : Byte} {mk : Half → Instr} {signed isFloat : Bool}
    (hform : ∀ u, (mk u).form = some (tag, .scalar .two signed isFloat))
    (henc : ∀ u, encode (mk u) = tag :: leBytes 2 u.toNat) : Reads tag (.scalar .two signed isFloat) (readTwo mk tag) := by
  refine ⟨fun p hp => ?short, fun p rest hp => ?whole⟩
  case short =>
    match p, hp with
    | [], _ | [_], _ => rfl
  case whole =>
    match p, hp with
    | [b0, b1], _ => exact ⟨mk (le16 b0 b1), rfl, hform _, by rw [henc, leBytes_le16]⟩

theorem reads_four {tag : Byte} {mk : Word → Instr} {signed isFloat : Bool}
    (hform : ∀ u, (mk u).form = some (tag, .scalar .four signed isFloat))
    (henc : ∀ u, encode (mk u) = tag :: leBytes 4 u.toNat) : Reads tag (.scalar .four signed isFloat) (readFour mk tag) := by
  refine ⟨fun p hp => ?short, fun p rest hp => ?whole⟩
  case short =>
    match p, hp with
    | [], _ | [_], _ | [_, _], _ | [_, _, _], _ => rfl
  case whole =>
    match p, hp with
    | [b0, b1, b2, b3], _ => exact ⟨mk (le32 b0 b1 b2 b3), rfl, hform _, by rw [henc, leBytes_le32]⟩

theorem reads_array13 : Reads 0x1d (.fixedArray .one 3) (readArray13 .geofstat 0x1d) := by
  refine ⟨fun p hp => ?short, fun p rest hp => ?whole⟩
  case short =>
    match p, hp with
    | [], _ | [_], _ | [_, _], _ => rfl
  case whole =>
    match p, hp with
    | [b0, b1, b2], _ => exact ⟨.geofstat b0 b1 b2, rfl, rfl, rfl⟩

theorem reads_array14 : Reads 0x52 (.fixedArray .one 4) (readArray14 .rbhead 0x52) := by
  refine ⟨fun p hp => ?short, fun p rest hp => ?whole⟩
  case short =>
    match p, hp with
    | [], _ | [_], _ | [_, _], _ | [_, _, _], _ => rfl
  case whole =>
    match p, hp with
    | [b0, b1, b2, b3], _ => exact ⟨.rbhead b0 b1 b2 b3, rfl, rfl, rfl⟩

theorem reads_array43 : Reads 0x30 (.fixedArray .four 3) (readArray43 .mofields 0x30) := by
  refine ⟨fun p hp => ?short, fun p rest hp => ?whole⟩
  case short =>
    match p, hp with
    | [], _ | [_], _ | [_, _], _ | [_, _, _], _ | [_, _, _, _], _ | [_, _, _, _, _], _ | [_, _, _, _, _, _], _
    | [_, _, _, _, _, _, _], _ | [_, _, _, _, _, _, _, _], _ | [_, _, _, _, _, _, _, _, _], _
    | [_, _, _, _, _, _, _, _, _, _], _ | [_, _, _, _, _, _, _, _, _, _, _], _ => rfl
  case whole =>
    match p, hp with
    | [b0, b1, b2, b3, c0, c1, c2, c3, d0, d1, d2, d3], _ =>
      refine ⟨.mofields (le32 b0 b1 b2 b3) (le32 c0 c1 c2 c3) (le32 d0 d1 d2 d3), rfl, rfl, ?_⟩
      rw [encode, leBytes_le32, leBytes_le32, leBytes_le32]
      rfl

theorem reads_dateTime : Reads 0x14 .dateTime (readDateTime .datetime 0x14) := by
  refine ⟨fun p hp => ?short, fun p rest hp => ?whole⟩
  case short =>
    match p, hp with
    | [], _ | [_], _ | [_, _], _ | [_, _, _], _ | [_, _, _, _], _ | [_, _, _, _, _], _ | [_, _, _, _, _, _], _ => rfl
  case whole =>
    match p, hp with
    | [y0, y1, month, day, hour, minute, second], _ =>
      refine ⟨.datetime (le16 y0 y1) month day hour minute second, rfl, rfl, ?_⟩
      rw [encode, leBytes_le16]
      rfl

/-- `decodeTag` reads the entries of every registered tag by its record's type (R99). -/
theorem reads_decodeTag {tag : Byte} {d : Record} (h : regDefault tag = some d) :
    Reads tag d.type fun p => decodeTag tag p := by
  have hofNat : tag = BitVec.ofNat 8 tag.toNat := by rw [BitVec.ofNat_toNat, BitVec.setWidth_eq]
  unfold regDefault at h
  split at h
  case h_71 => cases h
  all_goals
    obtain rfl := Option.some.inj h
    rename_i htag
    rw [hofNat, htag]
  case h_1 | h_2 | h_63 | h_64 | h_65 | h_66 => exact reads_marker rfl rfl
  case h_16 => exact reads_dateTime
  case h_25 => exact reads_array13
  case h_34 => exact reads_array43
  case h_62 => exact reads_array14
  case h_3 | h_10 | h_11 | h_12 | h_13 | h_14 | h_22 | h_24 | h_26 | h_27 | h_35 | h_36 | h_44 | h_61 =>
    exact reads_one (fun _ => rfl) fun _ => rfl
  case h_5 | h_6 | h_7 | h_8 | h_9 | h_15 | h_23 | h_28 | h_29 | h_38 | h_39 | h_40 | h_41 | h_42 | h_43 | h_57 | h_58
      | h_59 | h_60 | h_67 | h_68 =>
    exact reads_two (fun _ => rfl) fun _ => rfl
  all_goals exact reads_four (fun _ => rfl) fun _ => rfl

/-- `decodeTag` knows no other tag (R112). -/
theorem decodeTag_of_unregistered {tag : Byte} (h : regDefault tag = none) (p : List Byte) :
    decodeTag tag p = .unknown tag := by
  unfold regDefault at h
  split at h
  case h_71 =>
    unfold decodeTag
    split
    case h_71 => rfl
    all_goals contradiction
  all_goals cases h

/-- Reading an entry has three outcomes, told by the tag's record and the number of bytes after it (R96, R112, R335). -/
theorem decodeEntry_cases (tag : Byte) (p : List Byte) :
    (regDefault tag = none ∧ decodeEntry (tag :: p) = .unknown tag)
    ∨ (∃ d, regDefault tag = some d ∧ p.length < paylen d.type ∧ decodeEntry (tag :: p) = .truncated tag)
    ∨ (∃ d i, regDefault tag = some d ∧ paylen d.type ≤ p.length ∧ decodeEntry (tag :: p) = .entry i (p.drop (paylen d.type))
        ∧ i.form = some (tag, d.type) ∧ encode i = tag :: p.take (paylen d.type)) := by
  cases hd : regDefault tag with
  | none => exact .inl ⟨rfl, decodeTag_of_unregistered hd p⟩
  | some d =>
    obtain ⟨hshort, hwhole⟩ := reads_decodeTag hd
    by_cases hlen : p.length < paylen d.type
    · exact .inr (.inl ⟨d, rfl, hlen, hshort p hlen⟩)
    · obtain ⟨i, hread, hform, henc⟩ := hwhole (p.take (paylen d.type)) (p.drop (paylen d.type)) (by
        rw [List.length_take]
        omega)
      rw [List.take_append_drop] at hread
      exact .inr (.inr ⟨d, i, rfl, by omega, hread, hform, henc⟩)

/-- An entry that was read belongs to its tag's record, and its encoding is what was read (R92 to R95). -/
theorem encode_of_decodeEntry {bytes rest : List Byte} {i : Instr} (h : decodeEntry bytes = .entry i rest) :
    bytes = encode i ++ rest ∧ ∃ tag d, regDefault tag = some d ∧ i.form = some (tag, d.type) := by
  cases bytes with
  | nil => cases h
  | cons tag p =>
    rcases decodeEntry_cases tag p with ⟨-, hread⟩ | ⟨_, -, -, hread⟩ | ⟨d, j, hd, -, hread, hform, henc⟩ <;>
      rw [h] at hread <;> cases hread
    exact ⟨by rw [henc, List.cons_append, List.take_append_drop], tag, d, hd, hform⟩

/-- An instruction with a form is an entry: a command has none (R99, R120). -/
theorem space_of_form {i : Instr} {f : Byte × FieldType} (h : i.form = some f) : i.space = .entry := by
  cases i
  case nop | encBegin | encField | encEnd | decRun | regTypeof | regScaleof | reset => cases h
  all_goals rfl

/-- A command's encoding is the code that names it (R120). -/
theorem encode_of_decodeCommand {code : Byte} {i : Instr} (h : decodeCommand code = some i) : encode i = [code] := by
  have hofNat : code = BitVec.ofNat 8 code.toNat := by rw [BitVec.ofNat_toNat, BitVec.setWidth_eq]
  unfold decodeCommand at h
  split at h
  case h_9 => cases h
  all_goals
    next hcode =>
      obtain rfl := Option.some.inj h
      rw [hofNat, hcode]
      rfl

/-- Settles O2: what was read is the encoding, in either space. -/
theorem decodedBytesAreTheEncoding : Obligations.DecodedBytesAreTheEncoding := by
  unfold Obligations.DecodedBytesAreTheEncoding
  intro sp bytes i rest h
  cases sp with
  | command =>
    cases bytes with
    | nil => cases h
    | cons code tl =>
      rw [decode, Option.map_eq_some_iff] at h
      obtain ⟨j, hcode, hpair⟩ := h
      cases hpair
      exact ⟨space_of_decodeCommand hcode, by rw [encode_of_decodeCommand hcode]; rfl⟩
  | entry =>
    rw [decode] at h
    split at h
    case h_2 => cases h
    case h_1 hread =>
      cases h
      obtain ⟨hbytes, _, _, -, hform⟩ := encode_of_decodeEntry hread
      exact ⟨space_of_form hform, hbytes⟩

/-- Settles O3: the three outcomes, by the tag's record. -/
theorem tagTellsTheEntryLength : Obligations.TagTellsTheEntryLength := by
  unfold Obligations.TagTellsTheEntryLength
  intro tag p
  rcases decodeEntry_cases tag p with ⟨hd, hread⟩ | ⟨d, hd, hlen, hread⟩ | ⟨d, i, hd, hlen, hread, hform, -⟩
  · simpa only [hd] using hread
  · simpa only [hd, if_pos hlen] using hread
  · simp only [hd, if_neg (Nat.not_lt.mpr hlen)]
    exact ⟨i, hread, hform⟩

/-! ### The tables -/

/-- Settles O4: the eight codes are looked up, and no other code names a command. -/
theorem eightCommandCodes : Obligations.EightCommandCodes := by
  unfold Obligations.EightCommandCodes
  refine ⟨fun code => ⟨fun hnone hmem => ?named, decodeCommand_of_not_mem⟩, rfl, rfl, rfl, rfl, rfl, rfl, rfl, rfl⟩
  simp only [List.mem_cons, List.not_mem_nil, or_false] at hmem
  rcases hmem with rfl | rfl | rfl | rfl | rfl | rfl | rfl | rfl <;> cases hnone

/-- Settles O5: each byte string is read by the table. -/
theorem specEntriesDecode : Obligations.SpecEntriesDecode := by
  unfold Obligations.SpecEntriesDecode
  decide

/-- Every instruction of the table is registered in REG_DEFAULT with its format's type (R96, R147). -/
theorem instr_wf_defaultParams (i : Instr) : i.wf defaultParams = true := by
  cases i <;> rfl

theorem defaultParams_wf : defaultParams.wf = true := by
  decide +kernel

/-- Settles O6: the check is computed, record by record. -/
theorem defaultRegistryIsWellFormed : Obligations.DefaultRegistryIsWellFormed := by
  unfold Obligations.DefaultRegistryIsWellFormed
  exact ⟨defaultParams_wf, by decide +kernel, by decide +kernel, instr_wf_defaultParams⟩

end Sys2Proof.Proofs
end

section
/-! PROOFS. One step (R20, R21 of 10_state.md): what it runs between commands and inside a DEC_RUN, that a step inside a DEC_RUN
is one turn of the decoder's loop over any registry, and that such steps chain to DEC_RUN. -/

namespace Sys2Proof.Proofs

open Sys2Proof Sys2Proof.Machine

/-! ### The block with the default parameters -/

theorem execWith_defaultParams (i : Instr) (s : State) : execWith defaultParams i s = exec i s := by
  cases i <;> rfl

theorem stepWith_defaultParams (s : State) : stepWith defaultParams s = step s := by
  unfold stepWith step
  cases fetch defaultParams s with
  | run i t => exact execWith_defaultParams i t
  | done t => rfl

/-! ### Inside a DEC_RUN -/

/-- The bytes under the cursor, when there are some: the tag, then what follows it. -/
theorem bytes_under_cursor {s : State} {tag : Byte} {p : List Byte} (h : entryBytes s = tag :: p) :
    s.rc < s.ilen.toNat ∧ ibufByte s s.rc = tag ∧ s.ilen.toNat = s.rc + 1 + p.length
      ∧ ibufRead s (s.rc + 1) p.length = p := by
  have hlen := congrArg List.length h
  rw [entryBytes, ibufRead_length, List.length_cons] at hlen
  have hrest := ibufRead_drop (xs := [tag]) h
  rw [List.length_singleton, show s.ilen.toNat - s.rc - 1 = p.length by omega] at hrest
  exact ⟨by omega, ibufByte_of_read_append (xs := []) h, by omega, hrest⟩

/-- The turn of the loop at a tag whose record's payload is all there (R335, R336). -/
theorem decStep_of_entry {C : Params} {s : State} {tag : Byte} {d : Record} {p rest : List Byte} (hne : tag ≠ Config.etx)
    (hd : C.reg tag = some d) (hp : p.length = paylen d.type) (h : entryBytes s = tag :: (p ++ rest)) :
    decStep C s = storeEntry tag (slotOf d.type p) (paylen d.type) s := by
  obtain ⟨hrc, htag, hlen, hread⟩ := bytes_under_cursor h
  rw [List.length_append] at hlen hread
  have hpay := ibufRead_take hread
  rw [hp] at hpay hlen
  rw [decStep, if_neg (by omega)]
  simp only [htag, if_neg hne, hd]
  rw [decRecord, if_neg (by omega), hpay]

/-- Only ETX is encoded with the tag of ETX (R99, R151). -/
theorem eq_etx_of_encode {i : Instr} {p : List Byte} (hs : i.space = .entry) (henc : encode i = Config.etx :: p) :
    i = .etx := by
  have hread := decodeEntry_encode i [] hs
  rw [henc] at hread
  exact (EntryRead.entry.inj hread).1.symm

theorem wf_of_form {C : Params} {i : Instr} {tag : Byte} {ty : FieldType} (hwf : i.wf C = true)
    (hform : i.form = some (tag, ty)) : ∃ d, C.reg tag = some d ∧ d.type = ty := by
  rw [Instr.wf, hform, Option.any_eq_true] at hwf
  obtain ⟨d, hd, hty⟩ := hwf
  exact ⟨d, hd, of_decide_eq_true hty⟩

/-- The entry under the cursor, in a format that the registry has, executes as one turn of the loop over that registry (R330
step 3). -/
theorem exec_eq_decStep {C : Params} {s : State} {i : Instr} {rest : List Byte}
    (hread : decodeEntry (entryBytes s) = .entry i rest) (hwf : i.wf C = true) : exec i s = .next (decStep C s) := by
  obtain ⟨hbytes, _, _, -, hentry⟩ := encode_of_decodeEntry hread
  have hs := space_of_form hentry
  by_cases he : i = .etx
  · subst he
    obtain ⟨hrc, htag, -, -⟩ := bytes_under_cursor hbytes
    rw [decStep, if_neg (by omega), htag]
    rfl
  · obtain ⟨tag, ty, hform, henc, hlen, hexec⟩ := exec_entry i s hs he
    obtain ⟨d, hd, rfl⟩ := wf_of_form hwf hform
    rw [henc] at hbytes
    rw [hexec, decStep_of_entry (fun htag => he (eq_etx_of_encode hs (htag ▸ henc))) hd hlen hbytes]

/-- A step inside a DEC_RUN is one turn of the loop over the block's registry, whatever it is (log 3). -/
theorem stepWith_of_walking (C : Params) {s : State} (h : s.walking = true) : stepWith C s = .next (decStep C s) := by
  rcases stepWith_walking C h with ⟨i, rest, hread, hwf, hstep⟩ | hstep
  · obtain ⟨-, _, _, -, hform⟩ := encode_of_decodeEntry hread
    rw [hstep, execWith_entry C i s (space_of_form hform), exec_eq_decStep hread hwf]
  · exact hstep

/-- Settles O59: the entry decoded under the cursor, when the registry has it in the table's format, executes as the turn of the
loop that it is. -/
theorem anyRegistryStepsThroughItsLoop : Obligations.AnyRegistryStepsThroughItsLoop := by
  unfold Obligations.AnyRegistryStepsThroughItsLoop
  exact ⟨stepWith_defaultParams, execWith_defaultParams, fun C _ => stepWith_of_walking C⟩

theorem step_of_walking {s : State} (h : s.walking = true) : step s = .next (decStep defaultParams s) := by
  rw [← stepWith_defaultParams, stepWith_of_walking _ h]

/-- Settles O12: the default block is one of those of O59. -/
theorem entryStepIsATurnOfTheLoop : Obligations.EntryStepIsATurnOfTheLoop := by
  unfold Obligations.EntryStepIsATurnOfTheLoop
  exact fun s => step_of_walking

/-! ### Between commands -/

/-- Settles O7: a write to CMD is decoded by its low byte (`step_write_cmd`); the entry under the cursor is registered in
REG_DEFAULT with its format, so its turn of the loop is its execution. -/
theorem stepRunsTheDecodedInstruction : Obligations.StepRunsTheDecodedInstruction := by
  unfold Obligations.StepRunsTheDecodedInstruction
  refine ⟨fun s v accesses i hw hp hcode => ?command, fun s i rest hw hread => ?entry⟩
  case command =>
    rw [BitVec.setWidth_eq_extractLsb' (by decide)] at hcode
    rw [step_write_cmd hw hp, hcode, Option.elim_some]
  case entry => rw [step_of_walking hw, exec_eq_decStep hread (instr_wf_defaultParams i)]

/-- What a step between commands can do in a block with these parameters: nothing, take off an access that changes no more, be
reset, execute a command, or write a register (R21, R386). -/
theorem stepWith_cases (C : Params) {s : State} (hw : s.walking = false) :
    stepWith C s = .next s
    ∨ (∃ accesses, stepWith C s = .next { s with pending := accesses })
    ∨ (∃ accesses, stepWith C s = .next (powerOn { s with pending := accesses }))
    ∨ (∃ i accesses, i.space = .command ∧ stepWith C s = execWith C i { s with pending := accesses })
    ∨ (∃ accesses, stepWith C s = .next (illegalCommand { s with pending := accesses }))
    ∨ (∃ r v accesses, stepWith C s = .next (writeReg C r v { s with pending := accesses })) := by
  rcases fetchHost_cases C s with ⟨-, h⟩ | ⟨_, accesses, -, h⟩ | ⟨accesses, -, h⟩ | ⟨_, _, accesses, i, -, -, hcode, h⟩
    | ⟨_, _, accesses, -, -, -, h⟩ | ⟨_, v, accesses, -, -, h⟩
  · exact .inl (stepWith_of_done C hw h)
  · exact .inr (.inl ⟨accesses, stepWith_of_done C hw h⟩)
  · exact .inr (.inr (.inl ⟨accesses, stepWith_of_done C hw h⟩))
  · exact .inr (.inr (.inr (.inl ⟨i, accesses, space_of_decodeCommand hcode, stepWith_of_run C hw h⟩)))
  · exact .inr (.inr (.inr (.inr (.inl ⟨accesses, stepWith_of_done C hw h⟩))))
  · exact .inr (.inr (.inr (.inr (.inr ⟨_, v, accesses, stepWith_of_done C hw h⟩))))

@[simp] theorem writeReg_walking (C : Params) (r : HostReg) (v : Word) (s : State) :
    (writeReg C r v s).walking = s.walking := by
  cases r <;> rfl

@[simp] theorem emitAll_walking (C : Params) (vs : List Byte) (s : State) : (emitAll C vs s).walking = s.walking := by
  induction vs generalizing s with
  | nil => rfl
  | cons v vs ih => exact ih (emit C v s)

@[simp] theorem encField_walking (C : Params) (s : State) : (encField C s).walking = s.walking := by
  rcases encField_cases C s with ⟨-, h⟩ | ⟨-, -, h⟩ | ⟨-, -, -, h⟩ | ⟨_, -, -, -, -, -, h⟩ | ⟨_, _, -, -, -, -, -, -, h⟩
    | ⟨_, p, -, -, -, -, -, -, h⟩ <;> rw [h]
  case inr.inr.inr.inr.inr => exact emitAll_walking C (s.opId :: p) s
  all_goals rfl

@[simp] theorem encEnd_walking (C : Params) (s : State) : (encEnd C s).walking = s.walking := by
  unfold encEnd
  split <;> rfl

theorem regTypeof_eq (C : Params) (s : State) :
    regTypeof C s = { s with qType := (C.reg s.opId).elim 0 fun d => packType d.type, cres := queryCode (C.reg s.opId) } := by
  unfold regTypeof
  cases C.reg s.opId <;> rfl

theorem regScaleof_eq (C : Params) (s : State) :
    regScaleof C s
      = { s with qScale := (C.reg s.opId).elim 0 fun d => packScale d.scale, cres := queryCode (C.reg s.opId) } := by
  unfold regScaleof
  cases C.reg s.opId <;> rfl

/-- A command answers a next state, and no walk is open after it when none was before (R20, R351, R421). -/
theorem execWith_command_atomic (C : Params) {i : Instr} (hs : i.space = .command) {s : State} (hw : s.walking = false) :
    ∃ t, execWith C i s = .next t ∧ t.walking = false := by
  rw [execWith_command C i s hs]
  refine ⟨_, rfl, ?_⟩
  cases i
  case encField => exact (encField_walking C s).trans hw
  case encEnd => exact (encEnd_walking C s).trans hw
  case decRun => exact decRun_ends C s
  case regTypeof =>
    simp only [regTypeof_eq]
    exact hw
  case regScaleof =>
    simp only [regScaleof_eq]
    exact hw
  case reset => rfl
  all_goals exact hw

/-- Settles O8: a turn of the loop answers a next state, and so does every access between commands, which opens no walk. -/
theorem stepIsAtomic : Obligations.StepIsAtomic := by
  unfold Obligations.StepIsAtomic
  intro s
  cases hw : s.walking with
  | true => exact ⟨_, step_of_walking hw, nofun⟩
  | false =>
    rw [← stepWith_defaultParams]
    rcases stepWith_cases defaultParams hw with h | ⟨_, h⟩ | ⟨_, h⟩ | ⟨i, accesses, hs, h⟩ | ⟨_, h⟩ | ⟨_, _, _, h⟩ <;> rw [h]
    case inr.inr.inr.inl =>
      obtain ⟨t, hexec, ht⟩ := execWith_command_atomic defaultParams hs (s := { s with pending := accesses }) hw
      exact ⟨t, hexec, fun _ => ht⟩
    case inr.inr.inr.inr.inr => exact ⟨_, rfl, fun _ => (writeReg_walking ..).trans hw⟩
    case inr.inr.inl => exact ⟨_, rfl, fun _ => rfl⟩
    all_goals exact ⟨_, rfl, fun _ => hw⟩

/-! ### The chain of single-entry steps -/

theorem run_succ_of_step {M : Host.Core} {s t : M.State} (h : M.step s = .next t) (k : Nat) :
    M.run (k + 1) s = M.run k t := by
  rw [Host.Core.run, h]

/-- A walk that the loop ends within `n` turns is ended by at most `n` steps, in the same state. -/
theorem run_eq_decLoop (n : Nat) {s : State} (hend : (decLoop defaultParams n s).walking = false) :
    ∃ k, k ≤ n ∧ Host.Core.run core k s = .next (decLoop defaultParams n s) := by
  induction n generalizing s with
  | zero => exact ⟨0, le_rfl, rfl⟩
  | succ n ih =>
    cases hw : s.walking with
    | false =>
      rw [decLoop_of_not_walking _ hw]
      exact ⟨0, Nat.zero_le _, rfl⟩
    | true =>
      rw [decLoop_succ _ hw] at hend ⊢
      obtain ⟨k, hk, hrun⟩ := ih hend
      refine ⟨k + 1, by omega, ?_⟩
      exact (run_succ_of_step (M := core) (step_of_walking hw) k).trans hrun

/-- Settles O13: DEC_RUN ends its walk within ILEN turns of the loop. -/
theorem decRunIsTheChainOfItsEntries : Obligations.DecRunIsTheChainOfItsEntries := by
  unfold Obligations.DecRunIsTheChainOfItsEntries
  exact fun s => run_eq_decLoop s.ilen.toNat (decRun_ends defaultParams s)

end Sys2Proof.Proofs
end

section
/-! PROOFS. The two invariants (R30, R32, R34 to R36, R318, R346) over any well-formed registry: what each operation of the
block keeps of them, and that every step keeps both. -/

namespace Sys2Proof.Proofs

open Sys2Proof Sys2Proof.Machine

/-! ### What the invariants do not read -/

theorem checksumInv_congr {s t : State} (hregs : SameEncRegs s t) (hbytes : SameOutput s t) (h : ChecksumInv s) :
    ChecksumInv t := by
  obtain ⟨hestate, hwc, hea, heb, -⟩ := hregs
  unfold ChecksumInv at h ⊢
  rw [hestate]
  cases hs : s.estate with
  | eIdle => trivial
  | eOpen =>
    simp only [hs] at h ⊢
    rw [hwc, hea, heb, hbytes, obufRead_ext fun i _ => hbytes (0 + i)]
    exact h
  | eDone =>
    simp only [hs] at h ⊢
    rw [hwc, hea, heb, hbytes, hbytes, hbytes, hbytes, obufRead_ext fun i _ => hbytes (0 + i)]
    exact h

/-- Both invariants hold of `t`, the second one when it held of `s`. -/
def InvariantsPass (C : Params) (s t : State) : Prop :=
  Inv C t ∧ (ChecksumInv s → ChecksumInv t)

/-- The operand registers, CRES, the registry answers and the accesses to come are in neither invariant. -/
theorem pass_update {C : Params} {s : State} (h : Inv C s) (opId : Byte) (opKind : BitVec 3) (opN : BitVec 4)
    (opExp : Byte) (opMantLo opMantHi : Word) (ope : Vector Word 8) (cres : ResultCode) (qType : BitVec 18)
    (qScale : BitVec 9) (pending : List HostAccess) :
    InvariantsPass C s { s with
      opId := opId, opKind := opKind, opN := opN, opExp := opExp, opMantLo := opMantLo, opMantHi := opMantHi, ope := ope
      cres := cres, qType := qType, qScale := qScale, pending := pending } :=
  ⟨⟨h.ibufCanonical, h.obufCanonical, h.resCanonical, h.ilenInside, h.encoder, h.slots, h.walk, h.results⟩,
    checksumInv_congr ⟨rfl, rfl, rfl, rfl, rfl, rfl, rfl⟩ (obufByte_congr rfl rfl)⟩

/-- Between commands the input may be any that lies inside IBUF (R32). -/
theorem pass_input {C : Params} {s : State} (h : Inv C s) (hw : s.walking = false) {m : Memory} {n : Half}
    (hm : Memory.wf C.ibufSize m = true) (hn : n.toNat ≤ C.ibufSize) : InvariantsPass C s { s with ibuf := m, ilen := n } := by
  have hrest := h.walk
  rw [WalkInv, if_neg (by simp [hw])] at hrest
  have hwalk : WalkInv { s with ibuf := m, ilen := n } := by
    rw [WalkInv, if_neg (by simp [hw])]
    exact hrest
  exact ⟨⟨hm, h.obufCanonical, h.resCanonical, hn, h.encoder, h.slots, hwalk, h.results⟩,
    checksumInv_congr ⟨rfl, rfl, rfl, rfl, rfl, rfl, rfl⟩ (obufByte_congr rfl rfl)⟩

/-! ### The host's accesses -/

/-- A write that runs no command keeps both invariants (R32, R386). -/
theorem pass_writeReg {C : Params} {s : State} (h : Inv C s) (hw : s.walking = false) (r : HostReg) (v : Word) :
    InvariantsPass C s (writeReg C r v s) := by
  cases r
  case ilen =>
    exact pass_input h hw h.ibufCanonical (by
      rw [ilenOf_toNat]
      omega)
  case ibuf i => exact pass_input h hw (bufWrite_wf i (v.setWidth 8) h.ibufCanonical) h.ilenInside
  all_goals exact pass_update h _ _ _ _ _ _ _ _ _ _ _

/-- A state with every register at rest meets both invariants, whatever its buffers hold in canonical form (R382, R450). -/
theorem pass_reset {C : Params} {s : State} {obuf ibuf : Memory} (hobuf : Memory.wf C.obufSize obuf = true)
    (hibuf : Memory.wf C.ibufSize ibuf = true) (pending : List HostAccess) (epoch : Nat) :
    InvariantsPass C s { State.reset with obuf := obuf, ibuf := ibuf, pending := pending, epoch := epoch } :=
  ⟨⟨hibuf, hobuf, rfl, Nat.zero_le _, ⟨rfl, rfl, rfl, rfl, rfl, rfl⟩, nofun, ⟨rfl, rfl⟩, fun _ => ⟨rfl, rfl, rfl⟩⟩,
    fun _ => trivial⟩

/-- Settles O9: the state after a power-on has every register at rest and both buffers empty. -/
theorem resetMeetsTheInvariants : Obligations.ResetMeetsTheInvariants := by
  unfold Obligations.ResetMeetsTheInvariants
  obtain ⟨hinv, hck⟩ := pass_reset (C := defaultParams) (s := State.reset) (obuf := []) (ibuf := []) rfl rfl [] 0
  exact ⟨hinv, hck trivial⟩

/-! ### The decoder -/

/-- What a decoder operation must leave for the invariants, given what it does not change (R330). -/
theorem inv_of_decOnly {C : Params} {s t : State} (h : Inv C s) (hd : DecOnly s t) (hres : ResultStore.wf t.res = true)
    (hslots : ∀ p ∈ t.res, SlotFits C p.1 p.2) (hwalk : WalkInv t) (hresults : ResultInv t) : Inv C t := by
  obtain ⟨hestate, hwc, hea, heb, hefcnt, hewcnt, hadv⟩ := hd.encRegs
  refine ⟨hd.ibuf ▸ h.ibufCanonical, hd.obuf ▸ h.obufCanonical, hres, hd.ilen ▸ h.ilenInside, ?_, hslots, hwalk, hresults⟩
  have henc := h.encoder
  unfold EncInv at henc ⊢
  rwa [hestate, hwc, hea, heb, hefcnt, hewcnt, hadv]

/-- A failed decode leaves nothing (R346, R410). -/
theorem inv_of_decFail {C : Params} {s t : State} (h : Inv C s) (hd : DecOnly s t) {code : ResultCode} (hcode : code ≠ .ok)
    (pos : Nat) (tag : Byte) : Inv C (decFail code pos tag t) :=
  inv_of_decOnly h (hd.trans (decOnly_decFail code pos tag t)) rfl nofun ⟨rfl, rfl⟩ fun _ => ⟨rfl, rfl, hcode⟩

theorem ilen_pos {s : State} (h : s.ilen ≠ 0) : 0 < s.ilen.toNat :=
  Nat.pos_of_ne_zero fun hz => h (BitVec.eq_of_toNat_eq hz)

theorem inv_decStart {C : Params} {s : State} (h : Inv C s) : Inv C (decStart s) := by
  have hclear : DecOnly s (decClear s) := decOnly_update s _ _ _ _ _ _ _ _ _ _ _ _ _
  have hheader : DecOnly s { decClear s with dhdr := true } := decOnly_update s _ _ _ _ _ _ _ _ _ _ _ _ _
  rcases decStart_cases s with ⟨-, hs⟩ | ⟨hne, -, hs⟩ | ⟨-, -, -, hs⟩ | ⟨hlong, -, -, hs⟩ <;> rw [hs]
  · exact inv_of_decFail h hclear (by decide) 0 0
  · exact inv_of_decOnly h (decOnly_update s _ _ _ _ _ _ _ _ _ _ _ _ _) rfl nofun ⟨Nat.zero_lt_one, ilen_pos hne⟩ nofun
  · exact inv_of_decFail h hheader (by decide) 5 0
  · exact inv_of_decOnly h (decOnly_update s _ _ _ _ _ _ _ _ _ _ _ _ _) rfl nofun ⟨Nat.lt_succ_self 5, hlong⟩ nofun

theorem inv_decEnd {C : Params} {s : State} (h : Inv C s) : Inv C (decEnd s) := by
  have hspan : DecOnly s { s with da := (spanChecksum s).1, db := (spanChecksum s).2 } :=
    decOnly_update s _ _ _ _ _ _ _ _ _ _ _ _ _
  rcases decEnd_cases s with ⟨-, hs⟩ | ⟨-, -, hs⟩ | ⟨-, -, hs⟩ <;> rw [hs]
  · exact inv_of_decFail h hspan (by decide) _ 0
  · exact inv_of_decOnly h (hspan.trans (decOnly_decFinish _)) h.resCanonical h.slots ⟨rfl, rfl⟩ fun _ => ⟨rfl, rfl⟩
  · exact inv_of_decFail h hspan (by decide) _ 0

/-- The slot that a registered tag's payload is stored as has its type's shape (R36, R151). -/
theorem slotFits_slotOf {C : Params} {tag : Byte} {d : Record} (hwf : C.wf = true) (hd : C.reg tag = some d)
    (hne : tag ≠ Config.etx) (p : List Byte) : SlotFits C tag.toNat (slotOf d.type p) := by
  have hcount := typeCount_le_of_wf (record_wf_of_wf hwf hd)
  obtain ⟨hn, hzero⟩ := slotOf_shape d.type p (by omega)
  refine ⟨fun htag => hne (BitVec.eq_of_toNat_eq htag), d, ?_, hn, fun k hk => hzero k (hn ▸ hk)⟩
  rwa [BitVec.ofNat_toNat, BitVec.setWidth_eq]

/-- A turn of the loop keeps the invariant: the walk moves on inside the input, and the slot that it stores fits (R335, R345). -/
theorem inv_decStep {C : Params} {s : State} (h : Inv C s) (hwf : C.wf = true) (hw : s.walking = true) :
    Inv C (decStep C s) := by
  rcases decStep_cases C s with ⟨-, hs⟩ | ⟨-, -, hs⟩ | ⟨-, -, -, hs⟩ | ⟨_, -, -, -, -, hs⟩ | ⟨d, hne, hd, hlen, hs⟩ <;> rw [hs]
  · exact inv_of_decFail h (DecOnly.refl s) (by decide) _ 0
  · exact inv_decEnd h
  · exact inv_of_decFail h (DecOnly.refl s) (by decide) _ _
  · exact inv_of_decFail h (DecOnly.refl s) (by decide) _ _
  · have hwalk := h.walk
    rw [WalkInv, if_pos hw] at hwalk
    refine inv_of_decOnly h (decOnly_storeEntry _ _ _ s) (insert_wf _ _ h.resCanonical) (fun p hp => ?slots) ?walk ?results
    case slots =>
      rcases mem_insert hp with rfl | hp
      · exact slotFits_slotOf hwf hd hne _
      · exact h.slots p hp
    case walk =>
      rw [WalkInv, storeEntry_walking, if_pos hw, storeEntry_dOff, storeEntry_rc, storeEntry_ilen]
      omega
    case results =>
      intro hend
      rw [storeEntry_walking, hw] at hend
      cases hend

/-- An operation that touches the decoder alone leaves the encoder's invariant. -/
theorem pass_of_decOnly {C : Params} {s t : State} (hd : DecOnly s t) (h : Inv C t) : InvariantsPass C s t :=
  ⟨h, checksumInv_congr hd.encRegs (obufByte_congr hd.obuf hd.outside.2)⟩

theorem inv_decRun {C : Params} {s : State} (h : Inv C s) (hwf : C.wf = true) : Inv C (decRun C s) :=
  decLoop_keeps (P := Inv C) (fun _ ht hw => inv_decStep ht hwf hw) _ (inv_decStart h)

/-! ### The encoder -/

/-- What an encoder operation must leave for the invariant. -/
theorem inv_of_encoder {C : Params} {s : State} (h : Inv C s) {obuf : Memory} (hm : Memory.wf C.obufSize obuf = true)
    {wc : Half} {ea eb : Byte} {efcnt ewcnt : Half} {advLen : Bool} {estate : EState} (cres : ResultCode)
    (henc : EncInv C { s with
      obuf := obuf, wc := wc, ea := ea, eb := eb, efcnt := efcnt, ewcnt := ewcnt, advLen := advLen, estate := estate
      cres := cres }) :
    Inv C { s with
      obuf := obuf, wc := wc, ea := ea, eb := eb, efcnt := efcnt, ewcnt := ewcnt, advLen := advLen, estate := estate
      cres := cres } :=
  ⟨h.ibufCanonical, hm, h.resCanonical, h.ilenInside, henc, h.slots, h.walk, h.results⟩

theorem encInv_of_open {C : Params} {s : State} (ho : s.estate = .eOpen) (h : EncInv C s) :
    1 ≤ s.wc.toNat ∧ s.wc.toNat + 3 ≤ C.obufSize ∧ s.advLen = false := by
  simpa only [EncInv, ho] using h

/-- What a read of OBUF shows in its first bytes. -/
theorem obufRead_take {s : State} {n : Nat} {xs ys : List Byte} (h : obufRead s 0 n = xs ++ ys) :
    obufRead s 0 xs.length = xs := by
  have hlen : n = xs.length + ys.length := by rw [← obufRead_length s 0 n, h, List.length_append]
  rw [hlen, obufRead_append] at h
  exact List.append_inj_left h (obufRead_length _ _ _)

/-- The byte of OBUF that a read shows behind its first bytes. -/
theorem obufByte_of_read_append {s : State} {n : Nat} {xs ys : List Byte} {v : Byte} (h : obufRead s 0 n = xs ++ v :: ys) :
    obufByte s xs.length = v := by
  rw [show xs ++ v :: ys = (xs ++ [v]) ++ ys by simp] at h
  have hread := obufRead_take h
  rw [List.length_append, List.length_singleton, obufRead_append, obufRead_one, Nat.zero_add] at hread
  exact List.singleton_inj.mp (List.append_inj_right' hread rfl)

/-- An open message that meets both invariants holds STX and some bytes, with their checksum. -/
theorem openWith_of_invariants {C : Params} {s : State} (ho : s.estate = .eOpen) (h : EncInv C s) (hck : ChecksumInv s) :
    OpenWith C (obufRead s 1 (s.wc.toNat - 1)) s := by
  obtain ⟨hlo, hroom, hadv⟩ := encInv_of_open ho h
  simp only [ChecksumInv, ho] at hck
  obtain ⟨hstx, hck⟩ := hck
  have hcursor : s.wc.toNat = 1 + (obufRead s 1 (s.wc.toNat - 1)).length := by
    rw [obufRead_length]
    omega
  have hbytes : obufRead s 0 s.wc.toNat = Config.stx :: obufRead s 1 (s.wc.toNat - 1) := by
    conv_lhs => rw [show s.wc.toNat = 1 + (s.wc.toNat - 1) by omega, obufRead_append, obufRead_one, hstx]
    rfl
  refine ⟨ho, hcursor, ?_, ?_, by omega, hadv⟩
  · rw [← hcursor, hbytes]
  · rw [← hbytes, hck]

theorem checksumInv_of_openWith {C : Params} {body : List Byte} {s : State} (h : OpenWith C body s) : ChecksumInv s := by
  simp only [ChecksumInv, h.isOpen]
  refine ⟨obufByte_of_read_append (xs := []) h.bytes, ?_⟩
  rw [h.cursor, h.bytes, h.checksum]

/-- The operand registers as a tuple of R294. -/
def operandOf (s : State) : Operand :=
  { id := s.opId, kind := s.opKind, mant := opMant s, exp := s.opExp, n := s.opN, elems := s.ope }

theorem opMant_toNat (s : State) : (opMant s).toNat = 2 ^ 32 * s.opMantHi.toNat + s.opMantLo.toNat :=
  toNat_append_eq_add _ _

theorem loadOperand_operandOf (s : State) : loadOperand (operandOf s) s = s := by
  have hmant := opMant_toNat s
  have hlo : (opMant s).setWidth 32 = s.opMantLo := by
    apply BitVec.eq_of_toNat_eq
    rw [BitVec.toNat_setWidth, hmant]
    omega
  have hhi : (opMant s >>> 32).setWidth 32 = s.opMantHi := by
    apply BitVec.eq_of_toNat_eq
    rw [BitVec.toNat_setWidth, BitVec.toNat_ushiftRight, Nat.shiftRight_eq_div_pow, hmant]
    omega
  unfold loadOperand operandOf
  rw [hlo, hhi]

theorem pass_encBegin {C : Params} {s : State} (h : Inv C s) (hwf : C.wf = true) :
    InvariantsPass C s (encBegin C s) := by
  obtain ⟨-, -, hmin, -⟩ := sizes_of_wf hwf
  refine ⟨?_, fun _ => checksumInv_of_openWith (encBegin_openWith s hmin)⟩
  rw [encBegin_eq C s (by omega)]
  exact inv_of_encoder h (keysRise_insert _ le_rfl (by omega) h.obufCanonical) .ok ⟨le_rfl, hmin, rfl⟩

/-- A skipped field leaves the open message as it is (R263). -/
theorem inv_encSkip {C : Params} {s : State} (h : Inv C s) (ho : s.estate = .eOpen) (code : ResultCode) :
    Inv C (encSkip code s) := by
  refine inv_of_encoder h h.obufCanonical code ?_
  simpa only [EncInv, ho] using h.encoder

/-- A field that fits leaves room for the trailer (R263, R286). -/
theorem inv_emitField {C : Params} {s : State} (h : Inv C s) (ho : s.estate = .eOpen) (hsize : C.obufSize < 65536)
    {vs : List Byte} (hfit : s.wc.toNat + vs.length + 3 ≤ C.obufSize) : Inv C (encCount (emitAll C vs s)) := by
  obtain ⟨hlo, -, hadv⟩ := encInv_of_open ho h.encoder
  obtain ⟨m, ht, -, hm⟩ := emitAll_eq C vs s (by omega) hsize
  rw [ht]
  refine inv_of_encoder h (hm h.obufCanonical) .ok ?_
  simp only [EncInv, ho, BitVec.toNat_ofNat]
  exact ⟨by omega, by omega, hadv⟩

theorem pass_encField {C : Params} {s : State} (h : Inv C s) (hwf : C.wf = true) :
    InvariantsPass C s (encField C s) := by
  obtain ⟨-, -, -, hmax⟩ := sizes_of_wf hwf
  by_cases ho : s.estate = .eOpen
  case neg =>
    rw [encField_of_not_open ho]
    exact pass_update h _ _ _ _ _ _ _ _ _ _ _
  refine ⟨?inv, fun hck => ?checksum⟩
  case inv =>
    rcases encField_cases C s with ⟨hno, -⟩ | ⟨-, -, hs⟩ | ⟨-, -, -, hs⟩ | ⟨_, -, -, -, -, -, hs⟩
      | ⟨_, _, -, -, -, -, -, -, hs⟩ | ⟨_, p, -, -, -, -, -, hfit, hs⟩
    case inl => exact absurd ho hno
    case inr.inr.inr.inr.inr =>
      rw [hs]
      exact inv_emitField h ho (by omega) (by rw [List.length_cons]; omega)
    all_goals
      rw [hs]
      exact inv_encSkip h ho _
  case checksum =>
    have hopen := openWith_of_invariants ho h.encoder hck
    have hfield := encField_openWith hopen (by omega) (operandOf s)
    rw [loadOperand_operandOf] at hfield
    rcases hfield with ⟨-, -, ht⟩ | ⟨_, -, -, -, ht⟩ | ⟨_, -, -, ht⟩ <;> exact checksumInv_of_openWith ht

/-- A finished message ends in ETX and its checksum (R288, R318). -/
theorem checksumInv_encEnd {C : Params} {body : List Byte} {s : State} (h : OpenWith C body s) (hsize : C.obufSize < 65536) :
    ChecksumInv (encEnd C s) := by
  obtain ⟨hwc, hbytes, -, hck⟩ := h.finish hsize
  have hdone : (encEnd C s).estate = .eDone := by rw [encEnd, if_pos h.isOpen]
  have hcovered := obufRead_take hbytes
  rw [← hck] at hbytes
  have hstx := obufByte_of_read_append (xs := []) hbytes
  have hetx := obufByte_of_read_append (xs := Config.stx :: body) (v := Config.etx) (ys := _ :: _ :: [])
    (by rw [hbytes, List.cons_append, List.append_assoc]; rfl)
  have ha := obufByte_of_read_append hbytes
  have hb := obufByte_of_read_append (xs := (Config.stx :: (body ++ [Config.etx])) ++ [(encEnd C s).ea]) (ys := [])
    (by rw [hbytes, List.append_assoc]; rfl)
  simp only [List.length_append, List.length_cons, List.length_nil] at hcovered hetx ha hb
  simp only [ChecksumInv, hdone, hwc]
  refine ⟨hstx, ?_, hetx, ha, hb⟩
  rw [show body.length + 4 - 2 = body.length + (0 + 1) + 1 by omega, hcovered, hck]

theorem pass_encEnd {C : Params} {s : State} (h : Inv C s) (hwf : C.wf = true) : InvariantsPass C s (encEnd C s) := by
  obtain ⟨-, -, -, hmax⟩ := sizes_of_wf hwf
  by_cases ho : s.estate = .eOpen
  case neg =>
    rw [encEnd_of_not_open ho]
    exact pass_update h _ _ _ _ _ _ _ _ _ _ _
  refine ⟨?inv, fun hck => checksumInv_encEnd (openWith_of_invariants ho h.encoder hck) (by omega)⟩
  obtain ⟨hlo, hroom, -⟩ := encInv_of_open ho h.encoder
  obtain ⟨m, ht, -, hm⟩ := encEnd_eq ho hroom (by omega)
  have hwc : (BitVec.ofNat 16 (s.wc.toNat + 3)).toNat = s.wc.toNat + 3 := by
    rw [BitVec.toNat_ofNat]
    omega
  rw [ht]
  refine inv_of_encoder h (hm h.obufCanonical) .ok ?_
  simp only [EncInv, hwc]
  exact ⟨by omega, hroom, rfl⟩

/-! ### The step -/

/-- Every command keeps both invariants. -/
theorem pass_command {C : Params} {i : Instr} {s t : State} (h : Inv C s) (hwf : C.wf = true) (hs : i.space = .command)
    (hexec : execWith C i s = .next t) : InvariantsPass C s t := by
  rw [execWith_command C i s hs] at hexec
  obtain rfl := Host.Outcome.next.inj hexec
  cases i
  case nop => exact pass_update h _ _ _ _ _ _ _ _ _ _ _
  case encBegin => exact pass_encBegin h hwf
  case encField => exact pass_encField h hwf
  case encEnd => exact pass_encEnd h hwf
  case decRun => exact pass_of_decOnly (decOnly_decRun C s) (inv_decRun h hwf)
  case regTypeof =>
    simp only [regTypeof_eq]
    exact pass_update h _ _ _ _ _ _ _ _ _ _ _
  case regScaleof =>
    simp only [regScaleof_eq]
    exact pass_update h _ _ _ _ _ _ _ _ _ _ _
  case reset => exact pass_reset h.obufCanonical h.ibufCanonical _ _
  all_goals cases hs

/-- Both invariants after taking an access off the list and then doing something that keeps them. -/
theorem pass_trans {C : Params} {s t u : State} (h : InvariantsPass C s t) (h' : Inv C t → InvariantsPass C t u) :
    InvariantsPass C s u :=
  ⟨(h' h.1).1, fun hck => (h' h.1).2 (h.2 hck)⟩

/-- Every step keeps both invariants: a turn of the loop inside a DEC_RUN, a host access between commands. -/
theorem pass_stepWith {C : Params} {s t : State} (h : Inv C s) (hwf : C.wf = true) (hstep : stepWith C s = .next t) :
    InvariantsPass C s t := by
  cases hw : s.walking with
  | true =>
    rw [stepWith_of_walking C hw] at hstep
    obtain rfl := Host.Outcome.next.inj hstep
    exact pass_of_decOnly (decOnly_decStep C s) (inv_decStep h hwf hw)
  | false =>
    have htaken (accesses : List HostAccess) : InvariantsPass C s { s with pending := accesses } :=
      pass_update h _ _ _ _ _ _ _ _ _ _ _
    rcases stepWith_cases C hw with he | ⟨accesses, he⟩ | ⟨accesses, he⟩ | ⟨i, accesses, hs, he⟩ | ⟨accesses, he⟩
      | ⟨r, v, accesses, he⟩ <;> rw [he] at hstep
    case inr.inr.inr.inl => exact pass_trans (htaken accesses) fun ht => pass_command ht hwf hs hstep
    all_goals obtain rfl := Host.Outcome.next.inj hstep
    case inl => exact ⟨h, id⟩
    case inr.inl => exact htaken accesses
    case inr.inr.inl => exact pass_reset rfl rfl _ _
    case inr.inr.inr.inr.inl =>
      exact pass_trans (htaken accesses) fun ht => pass_update ht _ _ _ _ _ _ _ .illegalCommand _ _ _
    case inr.inr.inr.inr.inr => exact pass_trans (htaken accesses) fun ht => pass_writeReg ht hw r v

/-- Settles O60: every step passes both invariants on. -/
theorem everyWellFormedBlockKeepsTheInvariants : Obligations.EveryWellFormedBlockKeepsTheInvariants := by
  unfold Obligations.EveryWellFormedBlockKeepsTheInvariants
  exact fun C s t hwf h hstep => pass_stepWith h hwf hstep

theorem pass_step {s t : State} (h : Inv defaultParams s) (hstep : step s = .next t) : InvariantsPass defaultParams s t :=
  pass_stepWith h defaultParams_wf (stepWith_defaultParams s ▸ hstep)

/-- Settles O10: the default registry and sizes are well formed. -/
theorem stepKeepsTheInvariant : Obligations.StepKeepsTheInvariant := by
  unfold Obligations.StepKeepsTheInvariant
  exact fun s t h hstep => (pass_step h hstep).1

/-- Settles O11: the second invariant is passed on where the first holds. -/
theorem stepKeepsTheChecksum : Obligations.StepKeepsTheChecksum := by
  unfold Obligations.StepKeepsTheChecksum
  exact fun s t h hck hstep => (pass_step h hstep).2 hck

end Sys2Proof.Proofs
end

section
/-! PROOFS. The host's accesses of 10_state.md: operand writes (R25), writes and reads over the whole register map (R42, R386),
idling (R21) and the power-on reset (R450). -/

namespace Sys2Proof.Proofs

open Sys2Proof Sys2Proof.Machine

/-! ### The operand registers (R25) -/

theorem opMant_low (s : State) : (opMant s).extractLsb' 0 32 = s.opMantLo := by
  apply BitVec.eq_of_toNat_eq
  rw [extractLsb'_toNat_eq_div_mod, opMant_toNat]
  omega

theorem opMant_high (s : State) : (opMant s).extractLsb' 32 32 = s.opMantHi := by
  apply BitVec.eq_of_toNat_eq
  rw [extractLsb'_toNat_eq_div_mod, opMant_toNat]
  omega

theorem regOf_ope (k : Fin 8) : regOf defaultParams (0x040 + 4 * k.val) = .ope k.val := by
  revert k
  decide

/-- Settles O14: each offset names its register, and writing that register stores the low bits. -/
theorem operandWritesKeepTheLowBits : Obligations.OperandWritesKeepTheLowBits := by
  unfold Obligations.OperandWritesKeepTheLowBits
  intro s v accesses hw
  have hlow {n : Nat} (hn : n ≤ 32) : v.extractLsb' 0 n = v.setWidth n := (BitVec.setWidth_eq_extractLsb' hn).symm
  refine ⟨fun hp => ?id, fun hp => ?kind, fun hp => ?n, fun hp => ?exp, fun hp => ?lo, fun hp => ?hi, fun k hp => ?elem,
    opMant_low s, opMant_high s, ?least, ?greatest⟩
  case id => rw [hlow (by decide), step_write hw hp (r := .opId) rfl nofun, writeReg]
  case kind => rw [hlow (by decide), step_write hw hp (r := .opKind) rfl nofun, writeReg]
  case n => rw [hlow (by decide), step_write hw hp (r := .opN) rfl nofun, writeReg]
  case exp => rw [hlow (by decide), step_write hw hp (r := .opExp) rfl nofun, writeReg]
  case lo => rw [step_write hw hp (r := .opMantLo) rfl nofun, writeReg]
  case hi => rw [step_write hw hp (r := .opMantHi) rfl nofun, writeReg]
  case elem =>
    rw [step_write hw hp (regOf_ope k) nofun, writeReg]
    simp only [vector_setIfInBounds]
  case least => exact BitVec.le_toInt s.opExp
  case greatest => exact Int.le_of_lt_add_one BitVec.toInt_lt

/-! ### The register map (R42) -/

/-- The registers of the map below the windows, by their offsets (R42). -/
def registerMap : List (Nat × HostReg) :=
  [(0x000, .cmd), (0x004, .cres), (0x008, .status), (0x010, .opId), (0x014, .opKind), (0x018, .opN), (0x01C, .opExp),
    (0x020, .opMantLo), (0x024, .opMantHi), (0x040, .ope 0), (0x044, .ope 1), (0x048, .ope 2), (0x04C, .ope 3),
    (0x050, .ope 4), (0x054, .ope 5), (0x058, .ope 6), (0x05C, .ope 7), (0x080, .estate), (0x084, .wc), (0x088, .ea),
    (0x08C, .eb), (0x090, .ewcnt), (0x094, .efcnt), (0x098, .advLen), (0x0C0, .ilen), (0x0C4, .dstate), (0x0C8, .derr),
    (0x0CC, .dpos), (0x0D0, .dtag), (0x0D4, .da), (0x0D8, .db), (0x0DC, .dhdr), (0x0E0, .dcnt), (0x100, .qType),
    (0x104, .qScale)]

/-- An offset names a register below the windows, or what the windows say (R42). -/
theorem regOf_cases (C : Params) (off : Nat) : (off, regOf C off) ∈ registerMap ∨ regOf C off = windowOf C off := by
  unfold regOf
  split
  case h_36 => exact .inr rfl
  all_goals
    left
    simp [registerMap]

/-- The windows of the map with the default sizes (R42, R43). -/
theorem windowOf_cases (off : Nat) :
    (0x1000 ≤ off ∧ off < 0x1000 + 512 ∧ windowOf defaultParams off = .ibuf (off - 0x1000))
    ∨ (0x2000 ≤ off ∧ off < 0x2000 + 512 ∧ windowOf defaultParams off = .obuf (off - 0x2000))
    ∨ (∃ id, id < 256 ∧ off = 0x4000 + 0x40 * id ∧ windowOf defaultParams off = .resHeader id)
    ∨ (∃ id, ∃ k : Fin 8, id < 256 ∧ off = 0x4000 + 0x40 * id + 4 + 4 * k.val
        ∧ windowOf defaultParams off = .resElem id k.val)
    ∨ windowOf defaultParams off = .unmapped := by
  have hi : defaultParams.ibufSize = 512 := rfl
  have ho : defaultParams.obufSize = 512 := rfl
  simp only [windowOf, hi, ho]
  by_cases hibuf : 0x1000 ≤ off ∧ off < 0x1000 + 512
  case pos => exact .inl ⟨hibuf.1, hibuf.2, if_pos hibuf⟩
  rw [if_neg hibuf]
  by_cases hobuf : 0x2000 ≤ off ∧ off < 0x2000 + 512
  case pos => exact .inr (.inl ⟨hobuf.1, hobuf.2, if_pos hobuf⟩)
  rw [if_neg hobuf]
  by_cases hres : 0x4000 ≤ off ∧ off < 0x4000 + 0x40 * 256
  case neg => exact .inr (.inr (.inr (.inr (if_neg hres))))
  rw [if_pos hres]
  by_cases hheader : (off - 0x4000) % 0x40 = 0
  case pos => exact .inr (.inr (.inl ⟨(off - 0x4000) / 0x40, by omega, by omega, if_pos hheader⟩))
  rw [if_neg hheader]
  by_cases helem : (off - 0x4000) % 0x40 % 4 = 0 ∧ (off - 0x4000) % 0x40 ≤ 4 + 4 * 7
  case neg => exact .inr (.inr (.inr (.inr (if_neg helem))))
  exact .inr (.inr (.inr (.inl ⟨(off - 0x4000) / 0x40, ⟨(off - 0x4000) % 0x40 / 4 - 1, by omega⟩, by omega,
    by simp only; omega, if_pos helem⟩)))

/-! ### Writes that are ignored (R386) -/

/-- A write to this register has no effect; a write to CMD is a command, and not meant here. -/
def ignoresWrites : HostReg → Bool
  | .cmd | .opId | .opKind | .opN | .opExp | .opMantLo | .opMantHi | .ope _ | .ilen | .ibuf _ => false
  | _ => true

theorem writeReg_of_ignoresWrites {r : HostReg} (h : ignoresWrites r = true) (C : Params) (v : Word) (s : State) :
    writeReg C r v s = s := by
  cases r
  case opId | opKind | opN | opExp | opMantLo | opMantHi | ope | ilen | ibuf => cases h
  all_goals rfl

/-- The offsets below the windows whose writes have an effect (R386). -/
theorem registerMap_ignoresWrites :
    ∀ p ∈ registerMap,
      p.1 ∉ [0x000, 0x010, 0x014, 0x018, 0x01C, 0x020, 0x024, 0x040, 0x044, 0x048, 0x04C, 0x050, 0x054, 0x058, 0x05C, 0x0C0] →
      ignoresWrites p.2 = true := by
  decide

/-- Settles O16: an offset outside the listed ones names a register that ignores writes. -/
theorem otherWritesAreIgnored : Obligations.OtherWritesAreIgnored := by
  unfold Obligations.OtherWritesAreIgnored
  intro s off v accesses hw hp hoff hibuf
  have hignores : ignoresWrites (regOf defaultParams off) = true := by
    rcases regOf_cases defaultParams off with hmem | hwindow
    · exact registerMap_ignoresWrites _ hmem hoff
    · rcases windowOf_cases off with ⟨hlo, hhi, -⟩ | ⟨-, -, h⟩ | ⟨_, -, -, h⟩ | ⟨_, _, -, -, h⟩ | h
      case inl => exact absurd ⟨hlo, hhi⟩ hibuf
      all_goals
        rw [hwindow, h]
        rfl
  have hcmd : regOf defaultParams off ≠ .cmd := fun h => by
    rw [h] at hignores
    cases hignores
  rw [step_write hw hp rfl hcmd, writeReg_of_ignoresWrites hignores]

/-! ### Reads (R386) -/

/-- A register that is at most 32 bits wide reads as its number (log 18). -/
theorem toNat_setWidth_word {n : Nat} (x : BitVec n) (h : n ≤ 32) : (x.setWidth 32).toNat = x.toNat :=
  BitVec.toNat_setWidth_of_le h

theorem toNat_flag_word (b : Bool) : ((BitVec.ofBool b).setWidth 32).toNat = b.toNat := by
  rw [toNat_setWidth_word _ (by decide), BitVec.toNat_ofBool]

/-- The header of a slot: its count, and the valid bit at bit 8 (R42). -/
theorem readReg_resHeader_toNat (id : Nat) (s : State) :
    (readReg (.resHeader id) s).toNat = (resSlot s id).n.toNat + (if resValid s id then 0x100 else 0) := by
  rw [readReg, toNat_setWidth_word _ (by decide)]
  simp only [toNat_append_eq_add, BitVec.toNat_ofBool]
  cases resValid s id
  · simp
  · simp
    omega

/-- Below the windows the map lists every offset that names a register (R42). -/
theorem registerMap_offsets :
    registerMap.map Prod.fst = [0x000, 0x004, 0x008, 0x010, 0x014, 0x018, 0x01C, 0x020, 0x024, 0x040, 0x044, 0x048, 0x04C,
      0x050, 0x054, 0x058, 0x05C, 0x080, 0x084, 0x088, 0x08C, 0x090, 0x094, 0x098, 0x0C0, 0x0C4, 0x0C8, 0x0CC, 0x0D0, 0x0D4,
      0x0D8, 0x0DC, 0x0E0, 0x100, 0x104] := rfl

/-- Settles O17: the register under each offset of the map, read; an offset outside the map names none. -/
theorem hostReadsReturnTheRegisters : Obligations.HostReadsReturnTheRegisters := by
  unfold Obligations.HostReadsReturnTheRegisters
  intro s
  refine ⟨?registers, fun k => ?ope, fun a ha => ?buffers, fun id hid => ⟨?header, fun k => ?elem⟩,
    fun off hoff hibuf hobuf hres => ?unmapped⟩
  case registers =>
    have narrow {n : Nat} (x : BitVec n) (h : n ≤ 32 := by decide) := toNat_setWidth_word x h
    simp only [List.forall_mem_cons, List.not_mem_nil, false_imp_iff, implies_true, and_true]
    exact ⟨rfl, narrow _, statusWord_toNat s, narrow _, narrow _, narrow _, narrow _, rfl, rfl, narrow _, narrow _, narrow _,
      narrow _, narrow _, narrow _, toNat_flag_word _, narrow _, narrow _, narrow _, narrow _, narrow _, narrow _, narrow _,
      toNat_flag_word _, narrow _, narrow _, narrow _⟩
  case ope =>
    rw [hostRead, regOf_ope]
    exact vector_getD s.ope k
  case buffers =>
    rw [hostRead, hostRead, regOf_ibuf ha, regOf_obuf ha]
    exact ⟨toNat_setWidth_word _ (by decide), toNat_setWidth_word _ (by decide)⟩
  case header => rw [hostRead, regOf_resHeader hid, readReg_resHeader_toNat]
  case elem =>
    rw [hostRead, regOf_resElem hid k]
    exact vector_getD (resSlot s id).e k
  case unmapped =>
    rcases regOf_cases defaultParams off with hmem | hwindow
    · rw [← registerMap_offsets] at hoff
      exact absurd (List.mem_map_of_mem hmem) hoff
    · rcases windowOf_cases off with ⟨hlo, hhi, -⟩ | ⟨hlo, hhi, -⟩ | ⟨id, hid, h, -⟩ | ⟨id, k, hid, h, -⟩ | h
      · exact absurd ⟨hlo, hhi⟩ hibuf
      · exact absurd ⟨hlo, hhi⟩ hobuf
      · exact absurd h (hres id hid).1
      · exact absurd h ((hres id hid).2 k)
      · rw [hostRead, hwindow, h]
        rfl

/-! ### Reads as steps, idling, power-on -/

/-- Settles O19: the access is taken off the list, or there is none. -/
theorem readsAndIdlingChangeNothing : Obligations.ReadsAndIdlingChangeNothing := by
  unfold Obligations.ReadsAndIdlingChangeNothing
  intro s hw
  refine ⟨fun off accesses hp => step_of_done hw ?_, fun hp => step_of_done hw ?_⟩
  · rw [fetchHost, hp]
  · rw [fetchHost, hp]

/-- A byte of a buffer that nothing has written is the free value of the present power-on (R41, log 5). -/
theorem freeBytes_of_nil {s : State} (hi : s.ibuf = []) (ho : s.obuf = []) (a : Nat) :
    ibufByte s a = Config.powerOnByte s.epoch .ibuf a ∧ obufByte s a = Config.powerOnByte s.epoch .obuf a := by
  simp only [ibufByte, obufByte, hi, ho, lookup_nil, Option.getD_none, and_self]

/-- Settles O20: the state is `State.reset` but for the accesses and the power-on count; its registers are those that RESET leaves. -/
theorem powerOnClearsTheBlock : Obligations.PowerOnClearsTheBlock := by
  unfold Obligations.PowerOnClearsTheBlock
  intro s accesses hw hp
  have hstep : step s = .next (powerOn { s with pending := accesses }) := step_of_done hw (by rw [fetchHost, hp])
  refine ⟨_, hstep, rfl, rfl, rfl, rfl, opMant_commandReset s, commandReset_ope_getElem s, rfl, rfl, rfl, rfl, rfl, rfl, rfl,
    rfl, rfl, rfl, rfl, rfl, rfl, rfl, rfl, rfl, rfl, noResults_of_nil rfl, rfl, rfl, statusWord_commandReset s,
    freeBytes_of_nil rfl rfl, rfl, rfl, rfl, rfl, rfl⟩

end Sys2Proof.Proofs
end

section
/-! PROOFS. ENC_FIELD on a registered identifier that is no framing one (R263, R280), the bound of R417, and that an encode
depends on its operands alone (R40, R452). -/

namespace Sys2Proof.Proofs

open Sys2Proof Sys2Proof.Machine

/-! ### One field -/

/-- ENC_FIELD with a message open, for an identifier that names a field: lines 5 to 11 of R263. -/
theorem encField_of_field {C : Params} {s : State} {d : Record} (ho : s.estate = .eOpen) (hd : C.reg s.opId = some d)
    (hstx : s.opId ≠ Config.stx) (hetx : s.opId ≠ Config.etx) : encField C s = encRegistered C d s := by
  rw [encField, if_pos ho, hd]
  exact if_neg (not_or.mpr ⟨hstx, hetx⟩)

/-- An operand with no payload, or with one that leaves no room for the trailer, is skipped; the invalid value is found first
(R280, R416, R417). -/
theorem encRegistered_of_skip {C : Params} {d : Record} {s : State}
    (h : payloadOf d s = none ∨ ∃ p, payloadOf d s = some p ∧ C.obufSize < s.wc.toNat + 1 + p.length + 3) :
    encRegistered C d s = encSkip (if payloadOf d s = none then .invalidFieldValue else .bufferOverflow) s := by
  unfold encRegistered
  cases hp : payloadOf d s with
  | none => rfl
  | some p =>
    obtain hfull : C.obufSize < s.wc.toNat + 1 + p.length + 3 := by simpa [hp] using h
    exact if_pos hfull

/-- Settles O29: a skip writes EWCNT and CRES. -/
theorem invalidAndOversizedFieldsAreSkipped : Obligations.InvalidAndOversizedFieldsAreSkipped := by
  unfold Obligations.InvalidAndOversizedFieldsAreSkipped
  intro s d ho hd hstx hetx hskip
  refine ⟨_, exec_encField s, ?_⟩
  rw [encField_of_field (C := defaultParams) ho hd hstx hetx, encRegistered_of_skip (C := defaultParams) hskip]
  exact ⟨rfl, satInc_toNat s.ewcnt, rfl, rfl, rfl, rfl, rfl, rfl, obufByte_congr rfl rfl,
    encoder_frame s s.obuf s.wc s.ea s.eb s.efcnt (satInc s.ewcnt) s.advLen s.estate _⟩

/-- Settles O36, type by type (`payloadOf_length`). -/
theorem payloadHasTheRecordLength : Obligations.PayloadHasTheRecordLength := by
  unfold Obligations.PayloadHasTheRecordLength
  exact fun s d p => payloadOf_length

/-- Settles O30: the entry is placed at the cursor, and the emit changes the encoder alone. -/
theorem encFieldEmitsTheEntry : Obligations.EncFieldEmitsTheEntry := by
  unfold Obligations.EncFieldEmitsTheEntry
  intro s d p ho hd hstx hetx hp hfit
  have hplen := payloadOf_length (regDefault_wf hd) hp
  have hsize : defaultParams.obufSize = 512 := rfl
  have hvs : (s.opId :: p).length = 1 + paylen d.type := by rw [List.length_cons, hplen, Nat.add_comm]
  obtain ⟨m, ht, hm, -⟩ := emitAll_eq defaultParams (s.opId :: p) s (by omega) (by decide)
  have hemit : encField defaultParams s = encCount (emitAll defaultParams (s.opId :: p) s) := by
    rw [encField_of_field ho hd hstx hetx, encRegistered, hp]
    exact if_neg (by omega)
  refine ⟨_, exec_encField s, ?_⟩
  rw [hemit, ht, ← hvs]
  refine ⟨?wc, obufRead_placed (s := s) rfl hm, fun a ha => obufByte_not_placed (by rfl) hm ha, rfl, satInc_toNat s.efcnt, rfl,
    rfl, rfl, rfl, encoder_frame s _ _ _ _ _ _ _ _ _⟩
  change (BitVec.ofNat 16 (s.wc.toNat + (s.opId :: p).length)).toNat = _
  rw [BitVec.toNat_ofNat]
  omega

/-! ### The bound of R417 -/

/-- The longest payload of REG_DEFAULT is that of MOFIELDS. -/
theorem regDefault_paylen_le {tag : Byte} {d : Record} (h : regDefault tag = some d) : paylen d.type ≤ 12 := by
  have hall : (regDefault tag).all (fun d => decide (paylen d.type ≤ 12)) = true := by
    unfold regDefault
    split <;> rfl
  rw [h] at hall
  exact of_decide_eq_true hall

theorem acceptedEntry_length_le {o : Operand} {e : Byte × List Byte} (h : acceptedEntry defaultParams o = some e) :
    e.2.length ≤ 12 := by
  obtain ⟨d, p, hd, -, hp, rfl⟩ := acceptedEntry_eq_some h
  exact (payloadOf_length (regDefault_wf hd) hp).trans_le (regDefault_paylen_le hd)

/-- A tuple alone is never answered with BufferOverflow. -/
theorem fieldCode_ne_bufferOverflow (C : Params) (o : Operand) : fieldCode C o ≠ .bufferOverflow := by
  unfold fieldCode
  split
  · nofun
  · split <;> nofun

/-- An open message that holds at most 13 bytes for each of `k` fields has no overflow before 39 fields are in it. -/
theorem overflow_needs_fields (os : List Operand) {body : List Byte} {s : State} (h : OpenWith defaultParams body s) {k : Nat}
    (hk : body.length ≤ 13 * k) {n : Nat} (hn : (encodeFields defaultParams os s).1[n]? = some .bufferOverflow) :
    39 ≤ k + ((encodeFields defaultParams os s).1.take n).count .ok := by
  have hsize : defaultParams.obufSize = 512 := rfl
  induction os generalizing body s k n with
  | nil => cases hn
  | cons o os ih =>
    rw [encodeFields_cons] at hn ⊢
    rcases encField_openWith h (by decide) o with ⟨-, hcode, ht⟩ | ⟨e, hacc, hfull, hcode, ht⟩ | ⟨e, hacc, hcode, ht⟩ <;>
      rw [hcode] at hn ⊢
    · cases n with
      | zero => exact absurd (Option.some.inj hn) (fieldCode_ne_bufferOverflow defaultParams o)
      | succ n =>
        have hrest := ih ht hk hn
        rw [List.take_succ_cons, List.count_cons]
        omega
    · have hlen := acceptedEntry_length_le hacc
      omega
    · have hlen := acceptedEntry_length_le hacc
      cases n with
      | zero => cases hn
      | succ n =>
        have hrest := ih ht (k := k + 1) (by rw [List.length_append, List.length_cons]; omega) hn
        rw [List.take_succ_cons, List.count_cons_self]
        omega

/-- Settles O32: ENC_BEGIN leaves a message with no field in it. -/
theorem overflowNeedsThirtyNineFields : Obligations.OverflowNeedsThirtyNineFields := by
  unfold Obligations.OverflowNeedsThirtyNineFields
  intro os s n hn
  have h := overflow_needs_fields os (encBegin_openWith s (by decide)) (k := 0) le_rfl hn
  rwa [Nat.zero_add] at h

/-! ### Two encodes of the same operands -/

theorem sameEncRegs_emit {s s' : State} (h : SameEncRegs s s') (C : Params) (v : Byte) :
    SameEncRegs (emit C v s) (emit C v s') := by
  obtain ⟨hestate, hwc, hea, heb, hefcnt, hewcnt, hadv⟩ := h
  simp only [SameEncRegs, emit_estate, emit_wc, emit_ea, emit_eb, emit_efcnt, emit_ewcnt, emit_advLen, hestate, hwc, hea, heb,
    hefcnt, hewcnt, hadv, and_self]

theorem sameEncRegs_emitAll {s s' : State} (h : SameEncRegs s s') (C : Params) (vs : List Byte) :
    SameEncRegs (emitAll C vs s) (emitAll C vs s') := by
  induction vs generalizing s s' with
  | nil => exact h
  | cons v vs ih => exact ih (sameEncRegs_emit h C v)

theorem sameEncRegs_encSkip {s s' : State} (h : SameEncRegs s s') (code : ResultCode) :
    SameEncRegs (encSkip code s) (encSkip code s') := by
  obtain ⟨hestate, hwc, hea, heb, hefcnt, hewcnt, hadv⟩ := h
  exact ⟨hestate, hwc, hea, heb, hefcnt, congrArg satInc hewcnt, hadv⟩

theorem sameEncRegs_encCount {s s' : State} (h : SameEncRegs s s') : SameEncRegs (encCount s) (encCount s') := by
  obtain ⟨hestate, hwc, hea, heb, hefcnt, hewcnt, hadv⟩ := h
  exact ⟨hestate, hwc, hea, heb, congrArg satInc hefcnt, hewcnt, hadv⟩

/-- ENC_FIELD of one tuple in two open messages with the same encoder registers: the same answer, the same registers. -/
theorem encField_agrees {C : Params} {s s' : State} (h : SameEncRegs s s') (ho : s.estate = .eOpen) (o : Operand) :
    SameEncRegs (encField C (loadOperand o s)) (encField C (loadOperand o s'))
      ∧ (encField C (loadOperand o s')).cres = (encField C (loadOperand o s)).cres := by
  have hload : SameEncRegs (loadOperand o s) (loadOperand o s') := h
  have hwc : s'.wc = s.wc := h.2.1
  rw [encField_loadOperand o ho, encField_loadOperand o (h.1.trans ho), hwc]
  cases acceptedEntry C o with
  | none => exact ⟨sameEncRegs_encSkip hload _, rfl⟩
  | some e =>
    simp only
    split
    · exact ⟨sameEncRegs_encSkip hload _, rfl⟩
    · exact ⟨sameEncRegs_encCount (sameEncRegs_emitAll hload C _), rfl⟩

@[simp] theorem emitAll_estate (C : Params) (vs : List Byte) (s : State) : (emitAll C vs s).estate = s.estate := by
  induction vs generalizing s with
  | nil => rfl
  | cons v vs ih => exact ih (emit C v s)

/-- No ENC_FIELD opens or closes a message. -/
theorem encField_estate (C : Params) (s : State) : (encField C s).estate = s.estate := by
  rcases encField_cases C s with ⟨-, h⟩ | ⟨-, -, h⟩ | ⟨-, -, -, h⟩ | ⟨_, -, -, -, -, -, h⟩ | ⟨_, _, -, -, -, -, -, -, h⟩
    | ⟨_, p, -, -, -, -, -, -, h⟩ <;> rw [h]
  case inr.inr.inr.inr.inr => exact emitAll_estate C (s.opId :: p) s
  all_goals rfl

theorem encodeFields_agree (C : Params) (os : List Operand) {s s' : State} (h : SameEncRegs s s') (ho : s.estate = .eOpen) :
    (encodeFields C os s').1 = (encodeFields C os s).1
      ∧ SameEncRegs (encodeFields C os s).2 (encodeFields C os s').2 ∧ (encodeFields C os s).2.estate = .eOpen := by
  induction os generalizing s s' with
  | nil => exact ⟨rfl, h, ho⟩
  | cons o os ih =>
    obtain ⟨hregs, hcres⟩ := encField_agrees (C := C) h ho o
    obtain ⟨hcodes, hrest, hopen⟩ := ih hregs ((encField_estate C (loadOperand o s)).trans ho)
    rw [encodeFields_cons, encodeFields_cons, hcres, hcodes]
    exact ⟨rfl, hrest, hopen⟩

theorem encEnd_agrees {C : Params} {s s' : State} (h : SameEncRegs s s') (ho : s.estate = .eOpen) :
    SameEncRegs (encEnd C s) (encEnd C s') := by
  have ho' : s'.estate = .eOpen := h.1.trans ho
  obtain ⟨-, hwc, hea, heb, hefcnt, hewcnt, -⟩ := sameEncRegs_emit h C Config.etx
  rw [encEnd, encEnd, if_pos ho, if_pos ho']
  have hcursor : (encTrailer C s').wc = (encTrailer C s).wc := congrArg (· + 1 + 1) hwc
  exact ⟨rfl, hcursor, hea, heb, hefcnt, hewcnt, by simp only [hcursor]⟩

/-- ENC_BEGIN sets every encoder register (R261). -/
theorem sameEncRegs_encBegin (C : Params) (s s' : State) : SameEncRegs (encBegin C s) (encBegin C s') :=
  ⟨rfl, rfl, rfl, rfl, rfl, rfl, rfl⟩

/-- Settles O38: two runs agree in the encoder registers from ENC_BEGIN on, so they answer alike and send the same entries. -/
theorem encodeForgetsThePast : Obligations.EncodeForgetsThePast := by
  unfold Obligations.EncodeForgetsThePast
  intro C os s s' hwf
  obtain ⟨hcodes, hregs, hopen⟩ := encodeFields_agree C os (sameEncRegs_encBegin C s s') rfl
  have hcodes' : encodeCodes C os s = encodeCodes C os s' := hcodes.symm
  refine ⟨?bytes, hcodes', encEnd_agrees hregs hopen⟩
  rw [(encodeRun_sends hwf os s).1, (encodeRun_sends hwf os s').1, sentEntries, sentEntries, hcodes']

end Sys2Proof.Proofs
end

section
/-! PROOFS. The entries as instructions (41_fields_telemetry.md, 42_fields_config.md, 40_registry.md): what storing an entry does
to the block, for every entry but ETX, and how ETX ends the decode (R337 to R339). -/

namespace Sys2Proof.Proofs

open Sys2Proof Sys2Proof.Machine

/-! ### Entries that are stored -/

/-- An entry that stores these elements under its tag has the effect of R345: its slot, the count, the cursor, nothing else. -/
theorem entryEffect_of_exec {i : Instr} {tag : Byte} {es : List Word} {payloadLen : Nat} {s : State}
    (hexec : exec i s = .next (storeEntry tag (slotOfElems es) payloadLen s)) (hlen : es.length < 16) :
    EntryEffect i tag es payloadLen s := by
  have hslot := resSlot_storeEntry tag (slotOfElems es) payloadLen s
  have hvalid := resValid_storeEntry tag (slotOfElems es) payloadLen s
  have hself : resSlot (storeEntry tag (slotOfElems es) payloadLen s) tag.toNat = slotOfElems es := by rw [hslot, if_pos rfl]
  have honly := decOnly_storeEntry tag (slotOfElems es) payloadLen s
  refine ⟨_, hexec, ?valid, ?count, fun k => ?elem, fun id hid => ⟨?otherValid, ?otherSlot⟩, satInc_toNat s.dcnt, rfl, rfl, rfl,
    rfl, ⟨rfl, rfl, rfl, rfl, rfl, rfl, rfl⟩, ⟨rfl, honly.byte⟩, honly.operands,
    ⟨honly.encRegs, obufByte_congr honly.obuf honly.outside.2⟩, honly.queries, honly.outside⟩
  case valid => rw [hvalid, decide_eq_true rfl, Bool.true_or]
  case count =>
    rw [hself, slotOfElems_n, BitVec.toNat_ofNat]
    omega
  case elem => rw [hself, slotOfElems_e]
  case otherValid => rw [hvalid, decide_eq_false hid, Bool.false_or]
  case otherSlot => rw [hslot, if_neg hid]

/-- Settles O45: a marker has no payload and no element. -/
theorem markerEntriesAreStored : Obligations.MarkerEntriesAreStored := by
  unfold Obligations.MarkerEntriesAreStored
  intro s
  have stored {i : Instr} {tag : Byte} (h : exec i s = .next (storeEntry tag (slotOfElems []) 0 s)) :
      EntryEffect i tag [] 0 s := entryEffect_of_exec h (by simp)
  simp only [List.forall_mem_cons, List.not_mem_nil, false_imp_iff, implies_true, and_true]
  exact ⟨stored rfl, stored rfl, stored rfl, stored rfl, stored rfl⟩

/-- Settles O46: each of the fourteen stores its byte with zeros above. -/
theorem oneByteEntriesAreStored : Obligations.OneByteEntriesAreStored := by
  unfold Obligations.OneByteEntriesAreStored
  intro s u
  have stored {i : Instr} {tag : Byte} (h : exec i s = .next (storeEntry tag (slotOfElems [u.setWidth 32]) 1 s)) :
      EntryEffect i tag [u.setWidth 32] 1 s := entryEffect_of_exec h (by simp)
  simp only [BitVec.ofNat_toNat, List.forall_mem_cons, List.not_mem_nil, false_imp_iff, implies_true, and_true]
  exact ⟨stored rfl, stored rfl, stored rfl, stored rfl, stored rfl, stored rfl, stored rfl, stored rfl, stored rfl,
    stored rfl, stored rfl, stored rfl, stored rfl, stored rfl⟩

/-- Settles O47: eighteen store their two bytes with zeros above, three with the sign above. -/
theorem twoByteEntriesAreStored : Obligations.TwoByteEntriesAreStored := by
  unfold Obligations.TwoByteEntriesAreStored
  intro s u
  have stored {i : Instr} {tag : Byte} {x : Word} (h : exec i s = .next (storeEntry tag (slotOfElems [x]) 2 s)) :
      EntryEffect i tag [x] 2 s := entryEffect_of_exec h (by simp)
  simp only [BitVec.ofNat_toNat, List.forall_mem_cons, List.not_mem_nil, false_imp_iff, implies_true, and_true]
  exact ⟨⟨stored rfl, stored rfl, stored rfl, stored rfl, stored rfl, stored rfl, stored rfl, stored rfl, stored rfl,
    stored rfl, stored rfl, stored rfl, stored rfl, stored rfl, stored rfl, stored rfl, stored rfl, stored rfl⟩,
    stored rfl, stored rfl, stored rfl⟩

/-- Settles O48: each of the twenty-five stores its four bytes as they are. -/
theorem fourByteEntriesAreStored : Obligations.FourByteEntriesAreStored := by
  unfold Obligations.FourByteEntriesAreStored
  intro s u
  have stored {i : Instr} {tag : Byte} (h : exec i s = .next (storeEntry tag (slotOfElems [u]) 4 s)) :
      EntryEffect i tag [u] 4 s := entryEffect_of_exec h (by simp)
  simp only [List.forall_mem_cons, List.not_mem_nil, false_imp_iff, implies_true, and_true]
  exact ⟨stored rfl, stored rfl, stored rfl, stored rfl, stored rfl, stored rfl, stored rfl, stored rfl, stored rfl,
    stored rfl, stored rfl, stored rfl, stored rfl, stored rfl, stored rfl, stored rfl, stored rfl, stored rfl,
    stored rfl, stored rfl, stored rfl, stored rfl, stored rfl, stored rfl, stored rfl⟩

/-- Settles O49: the elements in order, each byte or half with zeros above. -/
theorem arrayAndRecordEntriesAreStored : Obligations.ArrayAndRecordEntriesAreStored := by
  unfold Obligations.ArrayAndRecordEntriesAreStored
  intro s
  simp only [BitVec.ofNat_toNat]
  exact ⟨fun a b c => entryEffect_of_exec rfl (by simp), fun a b c => entryEffect_of_exec rfl (by simp),
    fun a b c d => entryEffect_of_exec rfl (by simp),
    fun year month day hour minute second => entryEffect_of_exec rfl (by simp)⟩

/-! ### ETX (R337 to R339) -/

theorem exec_etx (s : State) : exec .etx s = .next (decEnd s) := rfl

/-- Settles O50: the three outcomes of the end of the loop. -/
theorem etxEndsTheDecode : Obligations.EtxEndsTheDecode := by
  unfold Obligations.EtxEndsTheDecode
  intro s hw hrc
  have hilen := s.ilen.isLt
  obtain ⟨hwalk, hoff, hcursor⟩ := decEnd_rest s
  refine ⟨_, exec_etx s, ?_⟩
  have hframe := (decOnly_decEnd s).frame hwalk hoff hcursor
  rcases decEnd_cases s with ⟨hshort, h⟩ | ⟨hlong, hck, h⟩ | ⟨hlong, hck, h⟩ <;> rw [h] at hframe ⊢ <;>
    refine ⟨rfl, ?_, rfl, hframe⟩
  · rw [if_pos hshort]
    exact decFail_spec _ _ _ _ (by omega)
  · rw [spanChecksum] at hck
    rw [if_neg (by omega), if_pos hck]
    exact ⟨rfl, rfl, Nat.mod_eq_of_lt (show s.rc + 3 < 65536 by omega), rfl, rfl, rfl, fun _ => ⟨rfl, rfl⟩⟩
  · rw [spanChecksum] at hck
    rw [if_neg (by omega), if_neg hck]
    exact decFail_spec _ _ _ _ (by omega)

end Sys2Proof.Proofs
end

section
/-! PROOFS. DEC_RUN where it fails and what it depends on (45_decoder.md, 60_exceptions.md): the defects after entries that parse
(R411 to R414), that it completes in every state (R351), the result store after a list of entries (R345), DecodeMsg (R350), and
that a decode depends on its input alone (R40, R452). -/

namespace Sys2Proof.Proofs

open Sys2Proof Sys2Proof.Machine

/-! ### The turn at each defect -/

/-- The turn at a tag that is not registered (R411). -/
theorem decStep_of_unregistered {C : Params} {s : State} {tag : Byte} {p : List Byte} (h : entryBytes s = tag :: p)
    (hne : tag ≠ Config.etx) (hd : C.reg tag = none) : decStep C s = decFail .unknownField s.rc tag s := by
  obtain ⟨hrc, htag, -, -⟩ := bytes_under_cursor h
  rw [decStep, if_neg (by omega)]
  simp only [htag, if_neg hne, hd]

/-- The turn at a tag whose payload runs past the input (R335, R413). -/
theorem decStep_of_cut {C : Params} {s : State} {tag : Byte} {d : Record} {p : List Byte} (h : entryBytes s = tag :: p)
    (hne : tag ≠ Config.etx) (hd : C.reg tag = some d) (hp : p.length < paylen d.type) :
    decStep C s = decFail .truncatedMessage s.rc tag s := by
  obtain ⟨hrc, htag, hlen, -⟩ := bytes_under_cursor h
  rw [decStep, if_neg (by omega)]
  simp only [htag, if_neg hne, hd]
  rw [decRecord, if_pos (by omega)]

/-- The turn at ETX (R337). -/
theorem decStep_of_etx (C : Params) {s : State} {p : List Byte} (h : entryBytes s = Config.etx :: p) :
    decStep C s = decEnd s := by
  obtain ⟨hrc, htag, -, -⟩ := bytes_under_cursor h
  rw [decStep, if_neg (by omega)]
  exact if_pos htag

/-- Fewer than two bytes after ETX (R413). -/
theorem decEnd_of_cut {s : State} {p : List Byte} (h : entryBytes s = Config.etx :: p) (hp : p.length < 2) :
    decEnd s = decFail .truncatedMessage (s.rc + 1) 0 { s with da := (spanChecksum s).1, db := (spanChecksum s).2 } := by
  obtain ⟨-, -, hlen, -⟩ := bytes_under_cursor h
  rcases decEnd_cases s with ⟨-, hs⟩ | ⟨hlong, -⟩ | ⟨hlong, -⟩
  · exact hs
  · omega
  · omega

/-- Two wrong bytes after ETX (R414). -/
theorem decEnd_of_mismatch {s : State} {a b : Byte} {p : List Byte} (h : entryBytes s = Config.etx :: a :: b :: p)
    (hck : (a, b) ≠ spanChecksum s) :
    decEnd s = decFail .checksumMismatch (s.rc + 1) 0 { s with da := (spanChecksum s).1, db := (spanChecksum s).2 } := by
  obtain ⟨-, -, hlen, hread⟩ := bytes_under_cursor h
  have ha : ibufByte s (s.rc + 1) = a := ibufByte_of_read_append (xs := []) hread
  have hb : ibufByte s (s.rc + 2) = b := ibufByte_of_read_append (xs := [a]) hread
  rw [List.length_cons, List.length_cons] at hlen
  rcases decEnd_cases s with ⟨hshort, -⟩ | ⟨-, hyes, -⟩ | ⟨-, -, hs⟩
  · omega
  · rw [ha, hb] at hyes
    exact absurd hyes.symm hck
  · exact hs

/-! ### The whole command -/

section AfterEntries

variable {C : Params} {s : State} {h tail : List Byte} {es : List (Byte × List Byte)}

/-- After the entries, the rest of the input stands under the cursor. -/
theorem entryBytes_walkRead (hin : ibufRead s 0 s.ilen.toNat = h ++ Config.stx :: (entriesBytes es ++ tail)) :
    entryBytes (walkRead C h es s) = tail := by
  have hrest := ibufRead_drop (xs := h ++ Config.stx :: entriesBytes es) (ys := tail) (by rw [hin]; simp)
  rw [Nat.zero_add, List.length_append, List.length_cons, ← Nat.add_assoc, Nat.add_right_comm] at hrest
  exact hrest

/-- At the ETX after the entries the span is STX, the entries and ETX (R314). -/
theorem spanChecksum_walkRead
    (hin : ibufRead s 0 s.ilen.toNat = h ++ Config.stx :: (entriesBytes es ++ Config.etx :: tail)) :
    spanChecksum (walkRead C h es s) = fletcher (spanBytes es) := by
  have hbehind := ibufRead_drop hin
  rw [Nat.zero_add, show Config.stx :: (entriesBytes es ++ Config.etx :: tail) = spanBytes es ++ tail by simp [spanBytes]]
    at hbehind
  have hspan := ibufRead_take hbehind
  rw [spanBytes_length] at hspan
  have hcount : (walkRead C h es s).rc + 1 - (walkRead C h es s).dOff = (entriesBytes es).length + 2 := by
    change h.length + 1 + (entriesBytes es).length + 1 - h.length = _
    omega
  rw [spanChecksum, hcount]
  exact congrArg fletcher hspan

/-- DEC_RUN reads the entries and then makes the turn after them, when that turn ends the walk (R330). -/
theorem decRun_of_last_turn (hh : HeaderFits h) (hes : ∀ e ∈ es, EntryFits C e)
    (hin : ibufRead s 0 s.ilen.toNat = h ++ Config.stx :: (entriesBytes es ++ tail)) {t : State}
    (hturn : decStep C (walkRead C h es s) = t) (hend : t.walking = false) : decRun C s = t := by
  have hlen := congrArg List.length hin
  simp only [ibufRead_length, List.length_append, List.length_cons] at hlen
  obtain ⟨n, hturns⟩ : ∃ n, s.ilen.toNat = es.length + (n + 1) :=
    ⟨s.ilen.toNat - es.length - 1, by have := length_le_entriesBytes es; omega⟩
  rw [decRun, decStart_at_stx hh hin, hturns, decLoop_walkOpened (n + 1) hes hin, decLoop_succ C rfl, hturn,
    decLoop_of_not_walking C hend]

/-- A wrong checksum after the entries, for every registry (R414). -/
theorem decRun_of_mismatch {a b : Byte} (hh : HeaderFits h) (hes : ∀ e ∈ es, EntryFits C e)
    (hin : ibufRead s 0 s.ilen.toNat = h ++ Config.stx :: (entriesBytes es ++ Config.etx :: a :: b :: tail))
    (hck : (a, b) ≠ fletcher (spanBytes es)) :
    decRun C s = decFail .checksumMismatch (h.length + 1 + (entriesBytes es).length + 1) 0 { walkRead C h es s with
      da := (fletcher (spanBytes es)).1, db := (fletcher (spanBytes es)).2 } := by
  have hspan := spanChecksum_walkRead (C := C) hin
  have hrest := entryBytes_walkRead (C := C) hin
  refine decRun_of_last_turn hh hes hin ?_ rfl
  rw [decStep_of_etx C hrest, decEnd_of_mismatch hrest (hspan.symm ▸ hck), hspan]
  rfl

end AfterEntries

/-- Settles O53: the turn after the entries meets the defect. -/
theorem firstDefectEndsTheDecode : Obligations.FirstDefectEndsTheDecode := by
  unfold Obligations.FirstDefectEndsTheDecode
  intro s h es tail hh hes hin
  have hmax := s.ilen.isLt
  have hlen := congrArg List.length hin
  simp only [ibufRead_length, List.length_append, List.length_cons] at hlen
  have hrest := entryBytes_walkRead (C := defaultParams) hin
  refine ⟨fun tag p htail hne hd => ?unknown, fun tag p d htail hne hd hp => ?cut, fun p htail hp => ?noChecksum,
    fun a b p htail hck => ?mismatch⟩ <;> subst htail <;> rw [List.length_cons] at hlen
  case unknown =>
    have hrun := decRun_of_last_turn hh hes hin (decStep_of_unregistered (C := defaultParams) hrest hne hd) rfl
    obtain ⟨t, hexec, hfail, -, hda, hdb⟩ := exec_decRun_of_decFail hrun (by rw [walkRead_rc]; omega)
    exact ⟨t, hexec, hfail, hda, hdb⟩
  case cut =>
    have hrun := decRun_of_last_turn hh hes hin (decStep_of_cut (C := defaultParams) hrest hne hd hp) rfl
    obtain ⟨t, hexec, hfail, -, hda, hdb⟩ := exec_decRun_of_decFail hrun (by rw [walkRead_rc]; omega)
    exact ⟨t, hexec, hfail, hda, hdb⟩
  case noChecksum =>
    have hrun := decRun_of_last_turn hh hes hin ((decStep_of_etx defaultParams hrest).trans (decEnd_of_cut hrest hp)) rfl
    rw [spanChecksum_walkRead hin] at hrun
    obtain ⟨t, hexec, hfail, -, hda, hdb⟩ := exec_decRun_of_decFail hrun (by rw [walkRead_rc]; omega)
    exact ⟨t, hexec, hfail, by rw [hda, hdb]⟩
  case mismatch =>
    rw [List.length_cons] at hlen
    obtain ⟨t, hexec, hfail, -, hda, hdb⟩ := exec_decRun_of_decFail (decRun_of_mismatch hh hes hin hck) (by omega)
    exact ⟨t, hexec, hfail, by rw [hda, hdb]⟩

/-! ### The result store after a list of entries -/

/-- Settles O55: the last entry decides, or is of another tag and leaves the slot to those before it. -/
theorem lastEntryOfATagWins : Obligations.LastEntryOfATagWins := by
  unfold Obligations.LastEntryOfATagWins
  intro C es tag hes
  induction es using List.reverseRecOn with
  | nil => rfl
  | append_singleton es e ih =>
    obtain ⟨-, d, hd, -⟩ := hes e (by simp)
    rw [entriesStore_eq_foldl_storeOne, List.foldl_append, List.foldl_cons, List.foldl_nil, ← entriesStore_eq_foldl_storeOne,
      List.reverse_append, List.reverse_singleton, List.singleton_append, List.find?_cons]
    by_cases htag : e.1 = tag
    · subst htag
      rw [beq_self_eq_true]
      simp only [Option.bind_some, hd, Option.map_some]
      exact lookup_storeOne_self hd _ e.2
    · rw [lookup_storeOne_of_ne htag, beq_false_of_ne htag]
      exact ih fun e' he' => hes e' (by simp [he'])

/-! ### DecodeMsg -/

/-- The input of a DecodeMsg, as DEC_RUN finds it (R350). -/
theorem ibufRead_of_loadInput {C : Params} {buf : List Byte} (s : State) (hwf : C.wf = true) (hlen : buf.length ≤ C.ibufSize) :
    ibufRead (loadInput C buf s) 0 (loadInput C buf s).ilen.toNat = buf := by
  obtain ⟨-, hmax, -, -⟩ := sizes_of_wf hwf
  rw [loadInput_ilen s hlen (by omega), ibufRead_loadInput s hlen]

/-- Settles O56: the loaded message is what DEC_RUN decodes. -/
theorem decodeMessageGivesTheMapping : Obligations.DecodeMessageGivesTheMapping := by
  unfold Obligations.DecodeMessageGivesTheMapping
  intro C h es z s hwf hh hes hlen
  have hrun := decRun_of_message hh hes (ibufRead_of_loadInput s hwf hlen)
  rw [decodeMsg, decodeAfter, hrun]
  exact if_pos rfl

end Sys2Proof.Proofs
end

section
/-! PROOFS. What the checksum catches (44_checksum.md, R316): one changed byte changes `a`; a changed payload byte fails the
decode; a changed STX need not (log 16). -/

namespace Sys2Proof.Proofs

open Sys2Proof Sys2Proof.Machine

/-! ### One changed byte (R316) -/

/-- Every byte string starts from the accumulators that the one before it ends with; `a` adds up. -/
theorem fletcher_append_fst (xs ys : List Byte) : (fletcher (xs ++ ys)).1 = (fletcher xs).1 + (fletcher ys).1 := by
  rw [fletcher_append, fletcher_fold_fst]
  rfl

theorem fletcher_cons_fst (v : Byte) (ys : List Byte) : (fletcher (v :: ys)).1 = v + (fletcher ys).1 := by
  rw [show v :: ys = [v] ++ ys from rfl, fletcher_append_fst]
  simp [fletcher, fletcherStep]

theorem fletcher_changed_fst (xs ys : List Byte) (v v' : Byte) :
    (fletcher (xs ++ v' :: ys)).1 = (fletcher (xs ++ v :: ys)).1 + (v' - v) := by
  rw [fletcher_append_fst, fletcher_append_fst, fletcher_cons_fst, fletcher_cons_fst]
  ring

/-- Settles O42: the other bytes add the same to `a`. -/
theorem oneChangedByteChangesTheChecksum : Obligations.OneChangedByteChangesTheChecksum := by
  unfold Obligations.OneChangedByteChangesTheChecksum
  intro xs ys v v' hne
  have hdiff := fletcher_changed_fst xs ys v v'
  refine ⟨hdiff, fun heq => ?_⟩
  rw [heq, left_eq_add, sub_eq_zero] at hdiff
  exact hne hdiff.symm

/-! ### A changed payload byte -/

/-- Where a payload byte stands in the covered span. -/
theorem spanBytes_at_payload (before after : List (Byte × List Byte)) (tag v : Byte) (xs ys : List Byte) :
    spanBytes (before ++ (tag, xs ++ v :: ys) :: after)
      = (Config.stx :: (entriesBytes before ++ tag :: xs)) ++ v :: (ys ++ entriesBytes after ++ [Config.etx]) := by
  simp [spanBytes, entriesBytes]

/-- A payload with a changed byte is as long as before, so its entry still parses. -/
theorem entryFits_changed {C : Params} {tag v : Byte} {xs ys : List Byte} (h : EntryFits C (tag, xs ++ v :: ys)) (v' : Byte) :
    EntryFits C (tag, xs ++ v' :: ys) := by
  obtain ⟨hne, d, hd, hlen⟩ := h
  exact ⟨hne, d, hd, by simpa using hlen⟩

/-- Settles O43: all entries parse, and the two bytes after ETX are the checksum of another span. -/
theorem changedPayloadByteIsCaught : Obligations.ChangedPayloadByteIsCaught := by
  unfold Obligations.ChangedPayloadByteIsCaught
  intro C h before after tag xs ys v v' s hwf hh hes hne sent received hlen
  have hes' : ∀ e ∈ before ++ (tag, xs ++ v' :: ys) :: after, EntryFits C e := by
    simp only [List.forall_mem_append, List.forall_mem_cons] at hes ⊢
    obtain ⟨hbefore, hchanged, hafter⟩ := hes
    exact ⟨hbefore, entryFits_changed hchanged v', hafter⟩
  have hck : ((fletcher (spanBytes sent)).1, (fletcher (spanBytes sent)).2)
      ≠ fletcher (spanBytes (before ++ (tag, xs ++ v' :: ys) :: after)) := by
    intro heq
    have hfst := congrArg Prod.fst heq
    simp only [sent, spanBytes_at_payload] at hfst
    exact (oneChangedByteChangesTheChecksum _ _ v v' hne).2 hfst.symm
  have hreceived : received = h ++ Config.stx :: (entriesBytes (before ++ (tag, xs ++ v' :: ys) :: after)
      ++ Config.etx :: (fletcher (spanBytes sent)).1 :: (fletcher (spanBytes sent)).2 :: []) := by
    simp [received, spanBytes]
  have hrun := decRun_of_mismatch hh hes' ((ibufRead_of_loadInput s hwf hlen).trans hreceived) hck
  have hpos : received.length - 2
      = h.length + 1 + (entriesBytes (before ++ (tag, xs ++ v' :: ys) :: after)).length + 1 := by
    rw [hreceived]
    simp only [List.length_append, List.length_cons, List.length_nil]
    omega
  rw [decodeMsg, decodeAfter, hrun, hpos]
  exact if_neg nofun

/-! ### A changed STX (log 16) -/

/-- One MOFIELDS entry whose payload holds, from offset 5 of the message on, the empty message `02 03 05 07`. -/
def hidingEntry : Byte × List Byte :=
  (0x30, [0, 0, 0, 0x02, 0x03, 0x05, 0x07, 0, 0, 0, 0, 0])

theorem hidingEntry_fits : EntryFits defaultParams hidingEntry :=
  ⟨by decide, _, rfl, rfl⟩

/-- The bytes of its message with STX changed to 0: a header of five bytes, the empty message, and some bytes more. -/
theorem damaged_hidingEntry :
    (0x00 : Byte) :: (spanBytes [hidingEntry]).tail
        ++ [(fletcher (spanBytes [hidingEntry])).1, (fletcher (spanBytes [hidingEntry])).2]
      = [0x00, 0x30, 0, 0, 0] ++ messageBytes [] ++ [0, 0, 0, 0, 0, 0x03, 0x46, 0x49] := by
  decide

/-- Refutes O44: STX of the message of `hidingEntry` is changed to 0. The decoder takes the first five bytes for a gateway
header (R331) and decodes the empty message behind them. -/
theorem not_anyChangedCoveredByteIsCaught : ¬ Obligations.AnyChangedCoveredByteIsCaught := by
  unfold Obligations.AnyChangedCoveredByteIsCaught
  intro hclaim
  have hfails := hclaim [hidingEntry] [] (spanBytes [hidingEntry]).tail 0x02 0x00 State.reset
    (by simpa using hidingEntry_fits) (by decide) (by decide) (by decide)
  simp only [List.nil_append, damaged_hidingEntry] at hfails
  have hrun := decRun_of_message (C := defaultParams) (h := [0x00, 0x30, 0, 0, 0]) (es := [])
    (z := [0, 0, 0, 0, 0, 0x03, 0x46, 0x49]) (.inr ⟨rfl, by decide⟩) nofun
    (ibufRead_of_loadInput State.reset defaultParams_wf (by decide))
  rw [decodeAfter, hrun] at hfails
  cases hfails

end Sys2Proof.Proofs
end

section
/-! PROOFS. DEC_RUN in every state (45_decoder.md): how it can complete (R346, R351), and that what it leaves depends on the
registry and the loaded bytes alone (R40, R452). -/

namespace Sys2Proof.Proofs

open Sys2Proof Sys2Proof.Machine

/-! ### How a DEC_RUN completes (R346) -/

/-- The registers of a decode that succeeded, or of one that failed with one of four codes; a checksum stands in DA and DB only
after the two failures that come behind it (R346). -/
def Completed (t : State) : Prop :=
  (t.dstate = .dOk ∧ t.derr = .ok ∧ t.cres = .ok ∧ t.dtag = 0 ∧ t.dpos.toNat ≤ t.ilen.toNat)
    ∨ (t.dstate = .dFail ∧ t.cres = t.derr
      ∧ t.derr ∈ [ResultCode.unknownField, .malformedMessage, .truncatedMessage, .checksumMismatch]
      ∧ NoResults t ∧ t.dcnt = 0
      ∧ (t.derr ≠ .checksumMismatch → ¬ (t.derr = .truncatedMessage ∧ t.dtag = 0) → t.da = 0 ∧ t.db = 0))

/-- Inside a DEC_RUN no checksum is computed yet; after it, it has completed. -/
def WalkingOrCompleted (t : State) : Prop :=
  if t.walking then t.da = 0 ∧ t.db = 0 else Completed t

/-- A failure completes a DEC_RUN; the checksum registers must be clear where R346 says. -/
theorem completed_decFail {code : ResultCode} {tag : Byte} {s : State}
    (hcode : code ∈ [ResultCode.unknownField, .malformedMessage, .truncatedMessage, .checksumMismatch])
    (hck : code ≠ .checksumMismatch → ¬ (code = .truncatedMessage ∧ tag = 0) → s.da = 0 ∧ s.db = 0) (pos : Nat) :
    WalkingOrCompleted (decFail code pos tag s) :=
  .inr ⟨rfl, rfl, hcode, noResults_of_nil rfl, rfl, hck⟩

theorem walkingOrCompleted_decStart (s : State) : WalkingOrCompleted (decStart s) := by
  rcases decStart_cases s with ⟨-, h⟩ | ⟨-, -, h⟩ | ⟨-, -, -, h⟩ | ⟨-, -, -, h⟩ <;> rw [h]
  case inl | inr.inr.inl => exact completed_decFail (by decide) (fun _ _ => ⟨rfl, rfl⟩) _
  all_goals exact ⟨rfl, rfl⟩

theorem walkingOrCompleted_decEnd (s : State) : WalkingOrCompleted (decEnd s) := by
  have hilen := s.ilen.isLt
  rcases decEnd_cases s with ⟨-, h⟩ | ⟨hlong, -, h⟩ | ⟨-, -, h⟩ <;> rw [h]
  · exact completed_decFail (by decide) (fun _ hno => absurd ⟨rfl, rfl⟩ hno) _
  · have hdpos : (BitVec.ofNat 16 (s.rc + 3)).toNat = s.rc + 3 := Nat.mod_eq_of_lt (by omega)
    exact .inl ⟨rfl, rfl, rfl, rfl, hdpos.trans_le hlong⟩
  · exact completed_decFail (by decide) (fun hno _ => absurd rfl hno) _

theorem walkingOrCompleted_decStep {C : Params} {s : State} (h : WalkingOrCompleted s) (hw : s.walking = true) :
    WalkingOrCompleted (decStep C s) := by
  obtain hzero : s.da = 0 ∧ s.db = 0 := by simpa only [WalkingOrCompleted, if_pos hw] using h
  rcases decStep_cases C s with ⟨-, hs⟩ | ⟨-, -, hs⟩ | ⟨-, -, -, hs⟩ | ⟨_, -, -, -, -, hs⟩ | ⟨d, -, -, -, hs⟩ <;> rw [hs]
  case inr.inl => exact walkingOrCompleted_decEnd s
  case inr.inr.inr.inr =>
    rw [WalkingOrCompleted, storeEntry_walking, if_pos hw]
    exact hzero
  all_goals exact completed_decFail (by decide) (fun _ _ => hzero) _

theorem completed_decRun (C : Params) (s : State) : Completed (decRun C s) := by
  have h : WalkingOrCompleted (decRun C s) :=
    decLoop_keeps (fun _ => walkingOrCompleted_decStep) _ (walkingOrCompleted_decStart s)
  simpa only [WalkingOrCompleted, decRun_ends, Bool.false_eq_true, if_false] using h

/-- A walk that is over has its cursor at rest (log 3). -/
def RestsWhenOver (t : State) : Prop :=
  t.walking = false → t.dOff = 0 ∧ t.rc = 0

theorem decStep_rests {C : Params} {s : State} (hw : s.walking = true) : RestsWhenOver (decStep C s) := by
  rcases decStep_cases C s with ⟨-, h⟩ | ⟨-, -, h⟩ | ⟨-, -, -, h⟩ | ⟨_, -, -, -, -, h⟩ | ⟨d, -, -, -, h⟩ <;> rw [h]
  case inr.inl => exact fun _ => (decEnd_rest s).2
  case inr.inr.inr.inr =>
    intro hend
    rw [storeEntry_walking, hw] at hend
    cases hend
  all_goals exact fun _ => ⟨rfl, rfl⟩

theorem decStart_rests (s : State) : RestsWhenOver (decStart s) := by
  rcases decStart_cases s with ⟨-, h⟩ | ⟨-, -, h⟩ | ⟨-, -, -, h⟩ | ⟨-, -, -, h⟩ <;> rw [h]
  case inl | inr.inr.inl => exact fun _ => ⟨rfl, rfl⟩
  all_goals nofun

theorem decRun_frame (C : Params) (s : State) : DecRunFrame s (decRun C s) := by
  have hrest : RestsWhenOver (decRun C s) :=
    decLoop_keeps (P := RestsWhenOver) (fun _ _ => decStep_rests) _ (decStart_rests s)
  obtain ⟨hoff, hrc⟩ := hrest (decRun_ends C s)
  exact (decOnly_decRun C s).frame (decRun_ends C s) hoff hrc

/-! ### The start offset (R331) -/

theorem decEnd_dhdr (s : State) : (decEnd s).dhdr = s.dhdr := by
  rcases decEnd_cases s with ⟨-, h⟩ | ⟨-, -, h⟩ | ⟨-, -, h⟩ <;> rw [h] <;> rfl

theorem decStep_dhdr (C : Params) (s : State) : (decStep C s).dhdr = s.dhdr := by
  rcases decStep_cases C s with ⟨-, h⟩ | ⟨-, -, h⟩ | ⟨-, -, -, h⟩ | ⟨_, -, -, -, -, h⟩ | ⟨d, -, -, -, h⟩ <;> rw [h]
  case inr.inl => exact decEnd_dhdr s
  all_goals rfl

theorem decRun_dhdr (C : Params) (s : State) : (decRun C s).dhdr = (decStart s).dhdr :=
  decLoop_keeps (P := fun t => t.dhdr = (decStart s).dhdr) (fun t h _ => (decStep_dhdr C t).trans h) _ rfl

theorem decStart_dhdr_iff (s : State) : (decStart s).dhdr = true ↔ 0 < s.ilen.toNat ∧ ibufByte s 0 ≠ Config.stx := by
  rcases decStart_cases s with ⟨hzero, h⟩ | ⟨-, hstx, h⟩ | ⟨hne, hstx, -, h⟩ | ⟨hlong, hstx, -, h⟩ <;> rw [h]
  · exact ⟨nofun, fun hlen => absurd hlen.1 (by simp [hzero])⟩
  · exact ⟨nofun, fun hno => absurd hstx hno.2⟩
  · exact ⟨fun _ => ⟨ilen_pos hne, hstx⟩, fun _ => rfl⟩
  · exact ⟨fun _ => ⟨by omega, hstx⟩, fun _ => rfl⟩

/-- Settles O51: every turn of the loop leaves the walk open with DA and DB clear, or completes the command. -/
theorem decRunCompletes : Obligations.DecRunCompletes := by
  unfold Obligations.DecRunCompletes
  intro s
  refine ⟨_, exec_decRun s, ?_, ?_, decRun_frame defaultParams s⟩
  · have h := completed_decRun defaultParams s
    rw [Completed, (decOnly_decRun defaultParams s).ilen] at h
    exact h
  · rw [decRun_dhdr]
    exact decStart_dhdr_iff s

/-! ### Two decodes of the same input -/

/-- Two states stand at the same point of the decode of the same input: everything that the loop reads or has written is the
same. CRES, DSTATE and DERR are written where the walk ends. -/
structure SameDecode (s t : State) : Prop where
  ilen : t.ilen = s.ilen
  bytes : ∀ a, a < s.ilen.toNat → ibufByte t a = ibufByte s a
  walk : SameWalk s t
  res : t.res = s.res
  dcnt : t.dcnt = s.dcnt
  dpos : t.dpos = s.dpos
  dtag : t.dtag = s.dtag
  da : t.da = s.da
  db : t.db = s.db
  dhdr : t.dhdr = s.dhdr
  ended : s.walking = false → t.dstate = s.dstate ∧ t.derr = s.derr ∧ t.cres = s.cres

namespace SameDecode

variable {s t : State}

theorem read (h : SameDecode s t) {a n : Nat} (hlen : a + n ≤ s.ilen.toNat) : ibufRead t a n = ibufRead s a n :=
  ibufRead_ext fun i hi => h.bytes (a + i) (by omega)

theorem fail (h : SameDecode s t) (code : ResultCode) (pos : Nat) (tag : Byte) :
    SameDecode (decFail code pos tag s) (decFail code pos tag t) :=
  ⟨h.ilen, h.bytes, ⟨rfl, rfl, rfl⟩, rfl, rfl, rfl, rfl, h.da, h.db, h.dhdr, fun _ => ⟨rfl, rfl, rfl⟩⟩

theorem finish (h : SameDecode s t) : SameDecode (decFinish s) (decFinish t) :=
  ⟨h.ilen, h.bytes, ⟨rfl, rfl, rfl⟩, h.res, h.dcnt, by simp only [decFinish_dpos, h.walk.2.2], rfl, h.da, h.db, h.dhdr,
    fun _ => ⟨rfl, rfl, rfl⟩⟩

theorem setChecksum (h : SameDecode s t) (a b : Byte) : SameDecode { s with da := a, db := b } { t with da := a, db := b } :=
  ⟨h.ilen, h.bytes, h.walk, h.res, h.dcnt, h.dpos, h.dtag, rfl, rfl, h.dhdr, h.ended⟩

theorem store (h : SameDecode s t) (tag : Byte) (slot : Slot) (n : Nat) :
    SameDecode (storeEntry tag slot n s) (storeEntry tag slot n t) := by
  obtain ⟨hwalking, hoff, hrc⟩ := h.walk
  exact ⟨h.ilen, h.bytes, ⟨hwalking, hoff, by simp only [storeEntry_rc, hrc]⟩, by simp only [storeEntry_res, h.res],
    by simp only [storeEntry_dcnt, h.dcnt], h.dpos, h.dtag, h.da, h.db, h.dhdr, h.ended⟩

end SameDecode

/-- The end of the loop reads the span and the two bytes behind it (R337, R338). -/
theorem sameDecode_decEnd {s t : State} (h : SameDecode s t) (hrc : s.rc < s.ilen.toNat) :
    SameDecode (decEnd s) (decEnd t) := by
  obtain ⟨-, hoff, hcursor⟩ := h.walk
  have hspan : spanChecksum t = spanChecksum s := by
    rw [spanChecksum, spanChecksum, hoff, hcursor, ibufRead_ext fun i hi => h.bytes (s.dOff + i) (by omega)]
  have hset := h.setChecksum (spanChecksum s).1 (spanChecksum s).2
  simp only [h.ilen, hcursor] at hset
  unfold decEnd
  simp only [hspan, h.ilen, hcursor]
  by_cases hshort : s.ilen.toNat < s.rc + 3
  · rw [if_pos hshort, if_pos hshort]
    exact hset.fail _ _ _
  · rw [if_neg hshort, if_neg hshort, h.bytes (s.rc + 1) (by omega), h.bytes (s.rc + 2) (by omega)]
    split
    · exact hset.finish
    · exact hset.fail _ _ _

/-- A turn of the loop reads the tag and, when all of it is there, the payload (R333 to R335). -/
theorem sameDecode_decStep {C : Params} {s t : State} (h : SameDecode s t) : SameDecode (decStep C s) (decStep C t) := by
  obtain ⟨-, -, hcursor⟩ := h.walk
  unfold decStep
  rw [h.ilen, hcursor]
  by_cases hend : s.ilen.toNat ≤ s.rc
  · rw [if_pos hend, if_pos hend]
    exact h.fail _ _ _
  · rw [if_neg hend, if_neg hend, h.bytes s.rc (by omega)]
    by_cases hetx : ibufByte s s.rc = Config.etx
    · simp only [if_pos hetx]
      exact sameDecode_decEnd h (by omega)
    · simp only [if_neg hetx]
      cases C.reg (ibufByte s s.rc) with
      | none => exact h.fail _ _ _
      | some d =>
        simp only [decRecord, h.ilen, hcursor]
        by_cases hcut : s.ilen.toNat < s.rc + 1 + paylen d.type
        · rw [if_pos hcut, if_pos hcut]
          exact h.fail _ _ _
        · rw [if_neg hcut, if_neg hcut, h.read (by omega)]
          exact h.store _ _ _

theorem sameDecode_decLoop {C : Params} (n : Nat) {s t : State} (h : SameDecode s t) :
    SameDecode (decLoop C n s) (decLoop C n t) := by
  induction n generalizing s t with
  | zero => exact h
  | succ n ih =>
    cases hw : s.walking with
    | false => rwa [decLoop_of_not_walking C hw, decLoop_of_not_walking C (h.walk.1.trans hw)]
    | true =>
      rw [decLoop_succ C hw, decLoop_succ C (h.walk.1.trans hw)]
      exact ih (sameDecode_decStep h)

theorem decStart_of_no_input {s : State} (h : s.ilen = 0) : decStart s = decFail .malformedMessage 0 0 (decClear s) :=
  if_pos h

theorem decStart_of_stx {s : State} (hne : s.ilen ≠ 0) (hstx : ibufByte s 0 = Config.stx) :
    decStart s = { decClear s with walking := true, dOff := 0, rc := 1 } :=
  calc decStart s
    _ = decOpen 0 (decClear s) := (if_neg hne).trans (if_pos hstx)
    _ = { decClear s with walking := true, dOff := 0, rc := 1 } :=
      (if_neg (Nat.not_le.mpr (ilen_pos hne))).trans (if_pos hstx)

theorem decStart_of_no_stx {s : State} (hne : s.ilen ≠ 0) (hno : ibufByte s 0 ≠ Config.stx)
    (hsixth : s.ilen.toNat ≤ 5 ∨ ibufByte s 5 ≠ Config.stx) :
    decStart s = decFail .malformedMessage 5 0 { decClear s with dhdr := true } := by
  rcases decStart_cases s with ⟨hzero, -⟩ | ⟨-, hstx, -⟩ | ⟨-, -, -, h⟩ | ⟨hlong, -, hstx, -⟩
  · exact absurd hzero hne
  · exact absurd hstx hno
  · exact h
  · exact absurd hsixth (not_or.mpr ⟨by omega, not_not.mpr hstx⟩)

theorem decStart_of_header {s : State} (hlong : 5 < s.ilen.toNat) (hno : ibufByte s 0 ≠ Config.stx)
    (hstx : ibufByte s 5 = Config.stx) :
    decStart s = { decClear s with dhdr := true, walking := true, dOff := 5, rc := 6 } := by
  have hne : s.ilen ≠ 0 := fun hzero => by simp [hzero] at hlong
  calc decStart s
    _ = decOpen 5 { decClear s with dhdr := true } := (if_neg hne).trans (if_neg hno)
    _ = { decClear s with dhdr := true, walking := true, dOff := 5, rc := 6 } :=
      (if_neg (Nat.not_le.mpr hlong)).trans (if_pos hstx)

/-- The start of a decode reads ILEN and the two bytes where STX may stand (R331, R332). -/
theorem sameDecode_decStart {s t : State} (hilen : t.ilen = s.ilen)
    (hbytes : ∀ a, a < s.ilen.toNat → ibufByte t a = ibufByte s a) : SameDecode (decStart s) (decStart t) := by
  rcases decStart_cases s with ⟨hzero, hs⟩ | ⟨hne, hstx, hs⟩ | ⟨hne, hno, hsixth, hs⟩ | ⟨hlong, hno, hstx, hs⟩ <;> rw [hs]
  · rw [decStart_of_no_input (hilen.trans hzero)]
    exact ⟨hilen, hbytes, ⟨rfl, rfl, rfl⟩, rfl, rfl, rfl, rfl, rfl, rfl, rfl, fun _ => ⟨rfl, rfl, rfl⟩⟩
  · rw [decStart_of_stx (hilen ▸ hne) ((hbytes 0 (ilen_pos hne)).trans hstx)]
    exact ⟨hilen, hbytes, ⟨rfl, rfl, rfl⟩, rfl, rfl, rfl, rfl, rfl, rfl, rfl, nofun⟩
  · have hsixth' : t.ilen.toNat ≤ 5 ∨ ibufByte t 5 ≠ Config.stx := by
      rw [hilen]
      by_cases hshort : s.ilen.toNat ≤ 5
      · exact .inl hshort
      · rw [hbytes 5 (by omega)]
        exact hsixth
    rw [decStart_of_no_stx (hilen ▸ hne) ((hbytes 0 (ilen_pos hne)).trans_ne hno) hsixth']
    exact ⟨hilen, hbytes, ⟨rfl, rfl, rfl⟩, rfl, rfl, rfl, rfl, rfl, rfl, rfl, fun _ => ⟨rfl, rfl, rfl⟩⟩
  · rw [decStart_of_header (hilen ▸ hlong) ((hbytes 0 (by omega)).trans_ne hno) ((hbytes 5 hlong).trans hstx)]
    exact ⟨hilen, hbytes, ⟨rfl, rfl, rfl⟩, rfl, rfl, rfl, rfl, rfl, rfl, rfl, nofun⟩

/-- Settles O57: the two runs agree from their starts on, and where they end CRES, DSTATE and DERR are written. -/
theorem decodeForgetsThePast : Obligations.DecodeForgetsThePast := by
  unfold Obligations.DecodeForgetsThePast
  intro C s s' hilen hbytes
  have h : SameDecode (decRun C s) (decRun C s') := by
    rw [decRun, decRun, ← hilen]
    exact sameDecode_decLoop _ (sameDecode_decStart hilen.symm fun a ha => (hbytes a ha).symm)
  obtain ⟨hdstate, hderr, hcres⟩ := h.ended (decRun_ends C s)
  exact ⟨h.res.symm, h.dcnt.symm, ⟨hdstate, hderr, h.dpos, h.dtag, h.da, h.db, h.dhdr⟩, hcres.symm⟩

end Sys2Proof.Proofs
end
